-- ==== Sys2Proof/Word.lean ====
section
/-! DEFINITION. The words of the block (00_scope.md R9): bytes, 16-bit values, and the 13-field record of a measurement. -/

namespace Sys2Proof

/-- A byte on either port (R9). -/
abbrev Byte := BitVec 8

/-- A 16-bit unsigned value: a measurement field, a length, a checksum, a command's data (R9). -/
abbrev Half := BitVec 16

/-- An OutputFrame: 13 unsigned 16-bit fields in wire order (10_state.md R30, 90_conflicts.md C1). -/
structure OutputFrame where
  fields : List Half
  length_eq : fields.length = 13
  deriving DecidableEq, Repr

end Sys2Proof
end

