-- ==== Sys2Proof/Config.lean ====
section
/-! DEFINITION. The constants the source fixes and the parameters the spec leaves open (00_scope.md R8).
The parameters are plain data held by the machine, so that a statement about every state is a statement about every
choice of them; `Config.default` is the spec's default column. -/

namespace Sys2Proof

/-- ReportMode (10_state.md R23). -/
inductive ReportMode where
  | active | passive
  deriving DecidableEq, Repr

/-- PowerMode (10_state.md R23). -/
inductive PowerMode where
  | awake | asleep
  deriving DecidableEq, Repr

/-- The five commands (30_encoding.md R77). -/
inductive Command where
  | enterPassive | enterActive | requestRead | sleep | wake
  deriving DecidableEq, Repr

/-- Every command, in the order of 41_encoder.md R141. -/
def Command.all : List Command := [.enterPassive, .enterActive, .requestRead, .sleep, .wake]

/-- The commands an acknowledgement answers (41_encoder.md R148). -/
def Command.acked : List Command := [.enterPassive, .enterActive, .sleep, .wake]

/-- One value for each command: a table indexed by Command, as plain data. -/
structure PerCommand (α : Type) where
  enterPassive : α
  enterActive : α
  requestRead : α
  sleep : α
  wake : α
  deriving DecidableEq, Repr

/-- The table's entry of a command. -/
def PerCommand.get {α : Type} (t : PerCommand α) : Command → α
  | .enterPassive => t.enterPassive
  | .enterActive => t.enterActive
  | .requestRead => t.requestRead
  | .sleep => t.sleep
  | .wake => t.wake

/-- A row of `CMD_TABLE`: opcode byte and 16-bit data (R141). -/
structure CmdEntry where
  opc : Byte
  data : Half
  deriving DecidableEq, Repr

/-- The parameters of R8 that are not fixed by the source. The RequestRead entries of `ackPayload` and `ackExpected` are
"not used" (R148). -/
structure Config where
  cmdTable : PerCommand CmdEntry
  ackLen : Half
  ackPayload : PerCommand (List Byte)
  ackExpected : PerCommand Bool
  initReportMode : ReportMode
  initPowerMode : PowerMode
  deriving DecidableEq, Repr

/-- Magic header, first byte (R8, R70). -/
def hdr0 : Byte := 0x42

/-- Magic header, second byte (R8, R70). -/
def hdr1 : Byte := 0x4D

/-- `MEAS_LEN` (R8, R72). -/
def measLen : Half := 28

/-- The default parameters of R8, R141 and R148. PRESUMED: the spec marks them `[from general knowledge, not in source]`
(log 3, log 4, log 6). -/
def Config.default : Config where
  cmdTable := { enterPassive := ⟨0xE1, 0x0000⟩, enterActive := ⟨0xE1, 0x0001⟩, requestRead := ⟨0xE2, 0x0000⟩,
                sleep := ⟨0xE4, 0x0000⟩, wake := ⟨0xE4, 0x0001⟩ }
  ackLen := 4
  ackPayload := { enterPassive := [0xE1, 0x00], enterActive := [0xE1, 0x01], requestRead := [],
                  sleep := [0xE4, 0x00], wake := [0xE4, 0x01] }
  ackExpected := { enterPassive := true, enterActive := true, requestRead := false, sleep := true, wake := true }
  initReportMode := .active
  initPowerMode := .awake

/-- The constraint 40_decoder.md R110 puts on any choice of the parameters. -/
def Config.WF (cfg : Config) : Prop :=
  2 ≤ cfg.ackLen.toNat ∧ cfg.ackLen.toNat ≤ 28 ∧ cfg.ackLen ≠ measLen ∧
  ∀ c ∈ Command.acked, (cfg.ackPayload.get c).length = cfg.ackLen.toNat - 2

/-- The command table and the acknowledgement table tell the commands apart (R77: the default's pairs are pairwise
distinct). Not required of a parameter choice; a hypothesis of the encoding statements only. -/
def Config.Distinct (cfg : Config) : Prop :=
  (Command.all.map cfg.cmdTable.get).Nodup ∧ (Command.acked.map cfg.ackPayload.get).Nodup

end Sys2Proof
end

