-- ==== Sys2Proof/Machine/Bytes.lean ====
section
/-! DEFINITION. Byte order, checksum and frame layout (00_scope.md R11, 20_memory.md R54, 30_encoding.md R70 to R73). -/

namespace Sys2Proof

/-- `be16`: big-endian assembly, `hi` first on the wire (R11). -/
def be16 (hi lo : Byte) : Half := (hi.setWidth 16 <<< 8) ||| lo.setWidth 16

/-- `hi8(v) = v[15:8]` (R11). -/
def hi8 (v : Half) : Byte := v.extractLsb' 8 8

/-- `lo8(v) = v[7:0]` (R11). -/
def lo8 (v : Half) : Byte := v.extractLsb' 0 8

/-- The two bytes of a 16-bit value in wire order (R54). -/
def beBytes16 (v : Half) : List Byte := [hi8 v, lo8 v]

/-- The plain, unwrapped sum of bytes. -/
def plainSum (bs : List Byte) : Nat := (bs.map BitVec.toNat).sum

/-- `sum16`: the sum of bytes mod 2^16 (R11). -/
def sum16 (bs : List Byte) : Half := BitVec.ofNat 16 (plainSum bs)

/-- A frame is its checked bytes followed by their checksum (R70). -/
def sealFrame (bs : List Byte) : List Byte := bs ++ beBytes16 (sum16 bs)

/-- The five checked bytes of a command frame (R71). -/
def cmdHead (opc : Byte) (data : Half) : List Byte := [hdr0, hdr1, opc, hi8 data, lo8 data]

/-- The bytes of a received frame before its checksum: header, LEN, payload (R72 to R74). -/
def rxHead (len : Half) (payload : List Byte) : List Byte := [hdr0, hdr1, hi8 len, lo8 len] ++ payload

/-- The 26 payload bytes of a measurement frame (R72). -/
def fieldBytes (f : OutputFrame) : List Byte := f.fields.flatMap beBytes16

/-- `Encode(c)`, the 7-byte command frame (41_encoder.md R140). -/
def cmdFrame (cfg : Config) (c : Command) : List Byte :=
  sealFrame (cmdHead (cfg.cmdTable.get c).opc (cfg.cmdTable.get c).data)

/-- A measurement frame with fields `f` and checksum bytes `chk`, right or wrong (R72). -/
def measFrame (f : OutputFrame) (chk : Half) : List Byte := rxHead measLen (fieldBytes f) ++ beBytes16 chk

/-- `MeasEncode(f)`: the measurement frame of `f` with its right checksum (40_decoder.md R113). -/
def measEncode (f : OutputFrame) : List Byte := sealFrame (rxHead measLen (fieldBytes f))

/-- The acknowledgement frame accepted for `c` (41_encoder.md R148). -/
def ackFrame (cfg : Config) (c : Command) : List Byte := sealFrame (rxHead cfg.ackLen (cfg.ackPayload.get c))

/-- The field list of 26 payload bytes: `FIELD_i = be16(byte 2i, byte 2i+1)` (30_encoding.md R76). -/
def fieldsOf (payload : List Byte) : OutputFrame where
  fields := (List.range 13).map fun i => be16 (payload.getD (2 * i) 0) (payload.getD (2 * i + 1) 0)
  length_eq := by simp

end Sys2Proof
end

