-- ==== Sys2Proof/Machine/State.lean ====
section
/-! DEFINITION. The machine's state: the elements of 10_state.md R20, the parameters of 00_scope.md R8, and the three
ports with what the environment does on them; the state after reset; the reasons a step stops. -/

namespace Sys2Proof.Machine

/-- The sequencer phase (R22). -/
inductive Phase where
  | idle | send | recv
  deriving DecidableEq, Repr

/-- What a receive phase must deliver, and the two shapes of a received frame (R26, 30_encoding.md R75). -/
inductive Shape where
  | meas | ack
  deriving DecidableEq, Repr

/-- The Frame Decoder's state (R27). -/
inductive DecState where
  | hunt0 | hunt1 | len | body
  deriving DecidableEq, Repr

/-- The operations a start can have accepted: `op` never holds a reserved code (R21, R80). -/
inductive HostOp where
  | read | request | passive | active | sleep | wake
  deriving DecidableEq, Repr

/-- The five error kinds (60_exceptions.md R200). -/
inductive ErrorKind where
  | checksumError | readFailed | sendFailed | incorrectResponse | noResponse
  deriving DecidableEq, Repr

/-- A result (30_encoding.md R85): code 6 is "never written" and has no constructor. -/
inductive OpResult where
  | ok
  | err (e : ErrorKind)
  | none
  deriving DecidableEq, Repr

/-- The transport's answer to a send (20_memory.md R53). -/
inductive TxAnswer where
  | ok | sendFailed
  deriving DecidableEq, Repr

/-- The transport's answer to a pull (R52). -/
inductive RxAnswer where
  | byte (b : Byte)
  | noResponse
  | readFailed
  deriving DecidableEq, Repr

/-- What reaches the block's ports from outside, in order of arrival. -/
inductive Input where
  /-- A host start (30_encoding.md R81). -/
  | start (code : BitVec 3)
  /-- A reset (70_reset_and_hazards.md R230). -/
  | reset
  /-- The transport's answer to the outstanding send (R53). -/
  | tx (a : TxAnswer)
  /-- A byte that reaches the stream (R52, R59), or the transport's other two answers to the outstanding pull (R52). -/
  | rx (a : RxAnswer)
  /-- A late answer: to a send that a reset has cut (70_reset_and_hazards.md R232). -/
  | lateTx (a : TxAnswer)
  /-- A late answer: to a pull that a reset has cut (R232). -/
  | lateRx (a : RxAnswer)
  deriving DecidableEq, Repr

/-- The `done(code, frame)` of an operation (R81). -/
structure Done where
  code : OpResult
  frame : Option OutputFrame
  deriving DecidableEq, Repr

/-- The frame buffer's contents in one canonical form: indexes strictly rising, no entry equal to `Memory.fill` (log 12). -/
abbrev Memory := List Host.Cell

/-- What a buffer byte nothing has written reads as. DESIGN CHOICE: R36 leaves it unspecified (log 10). -/
def Memory.fill : Byte := 0

/-- The number of bytes of `buf` (R50). -/
def bufSize : Nat := 32

/-- The state. The elements of R20, then the parameters, then the ports. -/
structure State where
  /-- ReportMode (R23, R24). -/
  reportMode : ReportMode
  /-- PowerMode (R23, R25). -/
  powerMode : PowerMode
  /-- Sequencer phase (R22). -/
  phase : Phase
  /-- Operation in progress (R21). -/
  op : HostOp
  /-- What the receive phase must yield (R26). -/
  expect : Shape
  /-- The command whose acknowledgement is awaited (R26). -/
  expCmd : Command
  /-- Decoder state (R27). -/
  decState : DecState
  /-- Bytes of the current frame held in `buf`, 0 to 32 (R28). -/
  decIdx : Nat
  /-- Declared length of the current frame (R28). -/
  decLen : Half
  /-- Frame buffer (R50). -/
  buf : Memory
  /-- `out_frame` with `out_valid`: no value while `out_valid` is 0 (R30; log 11). -/
  outFrame : Option OutputFrame
  /-- Result of the last completed operation (R31). -/
  lastResult : OpResult
  /-- The refusal mark (R32). -/
  fault : Bool
  /-- The parameters of R8, constant over every step (log 2). -/
  cfg : Config
  /-- Host starts, resets and transport answers to come (log 1). -/
  inputs : List Input
  /-- The transport's answers: to the outstanding send, then to coming ones (log 17). -/
  txAnswers : List TxAnswer
  /-- The transport's answers to the outstanding pull and to coming ones: the unpulled stream (20_memory.md R59; log 17). -/
  rxStream : List RxAnswer
  /-- The send handed over and not yet answered (R53). -/
  txPort : Option (List Byte)
  /-- Answered sends, oldest first (log 21). -/
  txLog : List (List Byte × TxAnswer)
  /-- The `done` handshakes issued, oldest first (R81; log 21). -/
  doneLog : List Done
  deriving DecidableEq, Repr

/-- The machine after reset under the parameters `cfg` (R36, 70_reset_and_hazards.md R230). `op`, `expect`, `expCmd`,
`decLen` and `buf` are unspecified there; their values here are DESIGN CHOICES (log 7 to log 10). -/
def State.resetWith (cfg : Config) : State where
  reportMode := cfg.initReportMode
  powerMode := cfg.initPowerMode
  phase := .idle
  op := .read
  expect := .meas
  expCmd := .requestRead
  decState := .hunt0
  decIdx := 0
  decLen := 0
  buf := []
  outFrame := none
  lastResult := .none
  fault := false
  cfg := cfg
  inputs := []
  txAnswers := []
  rxStream := []
  txPort := none
  txLog := []
  doneLog := []

/-- The machine right after reset, with the default parameters of R8. -/
def State.reset : State := State.resetWith Config.default

/-- What the next step is about: which agent moves (log 1). -/
inductive Event where
  /-- The fault mark is set and no reset comes next: no step (60_exceptions.md R221). -/
  | stopped
  /-- A reset; `rest` are the inputs after it. -/
  | reset (rest : List Input)
  /-- The transport answers the outstanding send. -/
  | txAnswered
  /-- The transport answers the outstanding pull with `a`. -/
  | rxAnswered (a : RxAnswer) (rest : List RxAnswer)
  /-- The host presents `start(code)`. -/
  | start (code : BitVec 3) (rest : List Input)
  /-- An answer to the outstanding send reaches the block. -/
  | txDraw (a : TxAnswer) (rest : List Input)
  /-- A byte reaches the stream, or an error the outstanding pull. -/
  | rxDraw (a : RxAnswer) (rest : List Input)
  /-- An answer to no outstanding request is dropped (70_reset_and_hazards.md R232, 93 U16). -/
  | dropped (rest : List Input)
  /-- Nothing comes: the block waits (60_exceptions.md R220). -/
  | waiting
  deriving DecidableEq, Repr

/-- The machine's faults. -/
inductive Fault where
  /-- A buffer index of 32 or more was accessed: `buf` has 32 bytes (R50). Raised by `storeByte` and `validate`; safe, and
  unreachable under the invariant (40_decoder.md R104: "`buf` never overflows"). -/
  | noSuchBufferByte
  deriving DecidableEq, Repr

/-- The machine's refusals. -/
inductive Refusal where
  /-- An instruction with no meaning yet. Raised by no arm of `exec`; safe. -/
  | notModelled (mnemonic : String)
  /-- The `fault` mark is set: the block takes no step (R32, R160, 60_exceptions.md R221). Raised by `unlessFaulted` and
  `step`; safe. -/
  | faulted
  /-- `out_frame` was read while `out_valid` is 0 (R30). Raised by `readOutFrame`; safe. -/
  | outFrameInvalid
  /-- `out_frame` was read at an index above 12: R33 gives indexes 0 to 12 and says nothing of another. DESIGN CHOICE (log 27).
  Raised by `readOutFrame`; safe. -/
  | noSuchField
  deriving DecidableEq, Repr

end Sys2Proof.Machine
end

