-- ==== Sys2Proof/Machine/Ops.lean ====
section
/-! DEFINITION. The shared operations: the frame buffer, the two ends of an operation (`raise`, which is what this
hardware has for taking an exception, and `complete`), ModeUpdate, and reset. -/

namespace Sys2Proof.Machine

/-- The outcome of a step of this machine. -/
abbrev Out := Host.Outcome State Fault Refusal

/-- Run `k` on the next state of `o`; a stop stays a stop. -/
def andThen (o : Out) (k : State → Out) : Out :=
  match o with
  | .next s => k s
  | .fault r => .fault r
  | .refused r => .refused r

/-- `MemRead(a, 1) = buf[a]` (00_scope.md R12). -/
def Memory.read : Memory → Nat → Byte
  | [], _ => Memory.fill
  | (k, v) :: m, a => if a = k then v else Memory.read m a

/-- `MemWrite(a, 1, v)` on the canonical form (R12): writing `Memory.fill` removes the entry. -/
def Memory.write : Memory → Nat → Byte → Memory
  | [], a, b => if b = Memory.fill then [] else [(a, b)]
  | (k, v) :: m, a, b =>
    if a < k then (if b = Memory.fill then (k, v) :: m else (a, b) :: (k, v) :: m)
    else if a = k then (if b = Memory.fill then m else (a, b) :: m)
    else (k, v) :: Memory.write m a b

/-- Canonical from index `lo` on: strictly rising, inside the buffer, no entry equal to `Memory.fill`. -/
def Memory.wfFrom : Nat → Memory → Bool
  | _, [] => true
  | lo, (k, v) :: m => decide (lo ≤ k) && decide (k < bufSize) && decide (v ≠ Memory.fill) && Memory.wfFrom (k + 1) m

/-- The canonical form (log 12). -/
def Memory.wf (m : Memory) : Bool := Memory.wfFrom 0 m

/-- `n` bytes of the buffer from index `a` on. -/
def Memory.readBytes (m : Memory) (a n : Nat) : List Byte := (List.range n).map fun i => m.read (a + i)

/-- `MemRead(a, 2) = be16(buf[a], buf[a+1])` (R12). -/
def Memory.read16 (m : Memory) (a : Nat) : Half := be16 (m.read a) (m.read (a + 1))

/-- `MemWrite(dec_idx, 1, b); dec_idx <- dec_idx + 1` (40_decoder.md R103, R105). An index past the buffer does not exist
(20_memory.md R50). -/
def storeByte (b : Byte) (s : State) : Out :=
  if s.decIdx < bufSize then .next { s with buf := s.buf.write s.decIdx b, decIdx := s.decIdx + 1 }
  else .fault .noSuchBufferByte

/-- `raise E` (60_exceptions.md R201): the error end of an operation. Nothing else is written. -/
def raise (e : ErrorKind) (s : State) : State :=
  { s with lastResult := .err e, phase := .idle, doneLog := s.doneLog ++ [⟨.err e, none⟩] }

/-- `complete(r)` (42_operations.md R161): the successful end; `r` is the frame of READ and REQUEST, `none` for unit. -/
def complete (r : Option OutputFrame) (s : State) : State :=
  { s with lastResult := .ok, phase := .idle, doneLog := s.doneLog ++ [⟨.ok, r⟩] }

/-- `ModeUpdate(c)` (R164): the only writer of SensorMode; it has no case for RequestRead. -/
def modeUpdate (c : Command) (s : State) : State :=
  match c with
  | .enterPassive => { s with reportMode := .passive }
  | .enterActive => { s with reportMode := .active }
  | .requestRead => s
  | .sleep => { s with powerMode := .asleep }
  | .wake => { s with powerMode := .awake }

/-- The stream less an error at its head: what a pull that is cut leaves. The error is its answer; a byte there is not yet
pulled and stays (70_reset_and_hazards.md R232). -/
def withoutOwedError : List RxAnswer → List RxAnswer
  | [] => []
  | .byte b :: rest => .byte b :: rest
  | .noResponse :: rest => rest
  | .readFailed :: rest => rest

/-- The answers to sends that a reset leaves: without the one owed to the outstanding send (R232). -/
def txAfterCut (s : State) : List TxAnswer := if s.phase = .send then s.txAnswers.tail else s.txAnswers

/-- The stream a reset leaves: without the error owed to the outstanding pull (R232). -/
def rxAfterCut (s : State) : List RxAnswer := if s.phase = .recv then withoutOwedError s.rxStream else s.rxStream

/-- Reset of the block (70_reset_and_hazards.md R230, R232): every element of R20 to its value after reset, an operation in
progress abandoned with no `done`, its outstanding send or pull dropped with the answer owed to it. The parameters, the bytes
not pulled and the answers to no cut request stay with the transport (log 18). -/
def resetBlock (s : State) : State :=
  { State.resetWith s.cfg with
    inputs := s.inputs, txAnswers := txAfterCut s, rxStream := rxAfterCut s, txLog := s.txLog, doneLog := s.doneLog }

/-- No step while the fault mark is set (R160: "if fault == 1 then no step"; 60_exceptions.md R221). -/
def unlessFaulted (s : State) (o : Out) : Out := if s.fault then .refused .faulted else o

/-- The next input, as an event (log 1). A transport "answers nothing it was not asked" (60_exceptions.md R213): an answer that
meets no outstanding request, or is owed to a request a reset has cut, is dropped (70_reset_and_hazards.md R232; log 17).
A byte is the stream's, asked or not (20_memory.md R59). -/
def nextInput (s : State) : Event :=
  match s.inputs with
  | [] => .waiting
  | .start code :: rest => .start code rest
  | .reset :: rest => .reset rest
  | .tx a :: rest => if s.phase = .send then .txDraw a rest else .dropped rest
  | .rx (.byte b) :: rest => .rxDraw (.byte b) rest
  | .rx a :: rest => if s.phase = .recv then .rxDraw a rest else .dropped rest
  | .lateTx _ :: rest => .dropped rest
  | .lateRx _ :: rest => .dropped rest

/-- What the next step is about (log 1): an answer the block waits for comes first, then the next input. A set fault mark
leaves only a reset (10_state.md R32). -/
def nextEvent (s : State) : Event :=
  if s.fault then
    match s.inputs with
    | .reset :: rest => .reset rest
    | _ => .stopped
  else
    match s.phase with
    | .idle => nextInput s
    | .send =>
      match s.txAnswers with
      | [] => nextInput s
      | _ :: _ => .txAnswered
    | .recv =>
      match s.rxStream with
      | [] => nextInput s
      | a :: rest => .rxAnswered a rest

end Sys2Proof.Machine
end

