-- ==== Sys2Proof/Machine/Operands.lean ====
section
/-! DEFINITION. The operands of a received frame, assembled from the buffer (30_encoding.md R76), and the host's view of
`out_frame` (10_state.md R33). There are no other operand forms (R76). -/

namespace Sys2Proof.Machine

/-- `MeasFields()`: `FIELD_i = be16(buf[4+2i], buf[5+2i])` for i = 0..12 (40_decoder.md R108). -/
def measFields (m : Memory) : OutputFrame where
  fields := (List.range 13).map fun i => m.read16 (4 + 2 * i)
  length_eq := by simp

/-- `AckPayload()`: `buf[4], ..., buf[1 + ACK_LEN]` (R109). -/
def ackPayload (cfg : Config) (m : Memory) : List Byte := m.readBytes 4 (cfg.ackLen.toNat - 2)

/-- The total length of the frame in progress, `4 + dec_len` (R74). -/
def frameLen (s : State) : Nat := 4 + s.decLen.toNat

/-- The bytes of the frame in progress. -/
def heldFrame (s : State) : List Byte := s.buf.readBytes 0 (frameLen s)

/-- The frame in progress is complete: `dec_idx == 4 + dec_len` in BODY (R105). -/
def frameComplete (s : State) : Bool :=
  decide (s.phase = .recv ∧ s.decState = .body ∧ s.decIdx = frameLen s)

/-- `out_valid` (10_state.md R30). -/
def State.outValid (s : State) : Bool := s.outFrame.isSome

/-- The host's read of word `i` of `out_frame`: read-only, index 0 to 12, refused while `out_valid` is 0 (R30, R33).
An index above 12 is refused under a name of its own: DESIGN CHOICE (log 27). -/
def readOutFrame (s : State) (i : Nat) : Host.Outcome Half Fault Refusal :=
  match s.outFrame with
  | none => .refused .outFrameInvalid
  | some f =>
    match f.fields[i]? with
    | some v => .next v
    | none => .refused .noSuchField

end Sys2Proof.Machine
end

