-- ==== Sys2Proof/Machine/FrameDecoder.lean ====
section
/-! DEFINITION. The Frame Decoder, byte by byte, and the sequencer's action on a complete frame (40_decoder.md,
42_operations.md R162). -/

namespace Sys2Proof.Machine

/-- RecvStart up to its pull (R101). -/
def recvStart (s : State) : State := { s with phase := .recv, decState := .hunt0, decIdx := 0 }

/-- LenCheck (R104): any other length ends the operation with IncorrectResponse as soon as LEN is complete. -/
def lenCheck (s : State) : State :=
  let t := { s with decLen := s.buf.read16 2 }
  if t.decLen ≠ measLen ∧ t.decLen ≠ t.cfg.ackLen then raise .incorrectResponse t
  else { t with decState := .body }

/-- The hunt at HUNT1 with the second header byte: `MemWrite(0, 1, HDR0); MemWrite(1, 1, HDR1)` (R102). -/
def takeHeader (s : State) : State :=
  { s with buf := (s.buf.write 0 hdr0).write 1 hdr1, decIdx := 2, decState := .len }

/-- `DecByte(b)` (R102 to R105) without the check of a complete frame, which `frameComplete` makes in the same step. -/
def decByte (b : Byte) (s : State) : Out :=
  match s.decState with
  | .hunt0 => .next (if b = hdr0 then { s with decState := .hunt1 } else s)
  | .hunt1 =>
    .next (if b = hdr1 then takeHeader s
      else if b = hdr0 then { s with decState := .hunt1 }
      else { s with decState := .hunt0 })
  | .len => andThen (storeByte b s) fun t => .next (if t.decIdx = 4 then lenCheck t else t)
  | .body => storeByte b s

/-- RecvAnswer (R107). -/
def recvAnswer (a : RxAnswer) (s : State) : Out :=
  match a with
  | .noResponse => .next (raise .noResponse s)
  | .readFailed => .next (raise .readFailed s)
  | .byte b => decByte b s

/-- FrameDone (42_operations.md R162). -/
def frameDone (kind : Shape) (s : State) : State :=
  match s.expect with
  | .meas =>
    if kind ≠ .meas then raise .incorrectResponse s
    else complete (some (measFields s.buf)) { s with outFrame := some (measFields s.buf) }
  | .ack =>
    if kind ≠ .ack then raise .incorrectResponse s
    else if ackPayload s.cfg s.buf ≠ s.cfg.ackPayload.get s.expCmd then raise .incorrectResponse s
    else complete none (modeUpdate s.expCmd s)

/-- The shape a declared length selects: `(dec_len == MEAS_LEN) ? MEAS : ACK` (R106). -/
def shapeOf (len : Half) : Shape := if len = measLen then .meas else .ack

/-- Validate (R106): the 16-bit sum of every byte before the checksum against the big-endian checksum, then FrameDone. A
frame that does not fit `buf` cannot be read. -/
def validate (s : State) : Out :=
  if bufSize < frameLen s then .fault .noSuchBufferByte
  else if sum16 (s.buf.readBytes 0 (frameLen s - 2)) ≠ s.buf.read16 (frameLen s - 2) then .next (raise .checksumError s)
  else .next (frameDone (shapeOf s.decLen) s)

/-- The decoder holds exactly these bytes as its complete frame. -/
def holds (s : State) (bytes : List Byte) : Bool := frameComplete s && decide (heldFrame s = bytes)

/-- A received frame, executed. Complete in the decoder, it is validated and acted on (R106, R162). Anywhere else it is
still on the line: its bytes join the stream and "wait in the transport until a receive phase pulls them" (60_exceptions.md
R208, 20_memory.md R59; log 15). -/
def rxFrame (bytes : List Byte) (s : State) : Out :=
  unlessFaulted s (if holds s bytes then validate s else .next { s with rxStream := s.rxStream ++ bytes.map .byte })

end Sys2Proof.Machine
end

