-- ==== Sys2Proof/Machine/Sequencer.lean ====
section
/-! DEFINITION. The sequencer's shared steps: Start and SendPhase (42_operations.md R160, R163). -/

namespace Sys2Proof.Machine

/-- SendPhase(c) up to its `await`: hand `Encode(c)` to the transport (R163, 00_scope.md R13). -/
def sendPhase (c : Command) (s : State) : State := { s with phase := .send, txPort := some (cmdFrame s.cfg c) }

/-- The rest of SendPhase(c), on the transport's answer (R163). -/
def sendAnswered (c : Command) (a : TxAnswer) (s : State) : State :=
  let t := { s with txPort := none, txLog := s.txLog ++ [(cmdFrame s.cfg c, a)] }
  match a with
  | .sendFailed => raise .sendFailed t
  | .ok =>
    if t.expect = .ack ∧ t.cfg.ackExpected.get c = false then complete none (modeUpdate c t)
    else recvStart t

/-- Start(OP) for a code with an operation (R160): no step while faulted, a start while busy sets the mark and does nothing
else, and otherwise `op` is written and the operation's first step follows in the same step. -/
def startOp (o : HostOp) (first : State → State) (s : State) : Out :=
  unlessFaulted s (.next (if s.phase ≠ .idle then { s with fault := true } else first { s with op := o }))

/-- Start(OP) for a reserved code (R160, 30_encoding.md R82): the mark is set, no other step. -/
def startReserved (s : State) : Out := unlessFaulted s (.next { s with fault := true })

/-- The first step of an operation that sends a mode command and awaits its acknowledgement (R172 to R175). -/
def modeFirst (c : Command) (s : State) : State := sendPhase c { s with expect := .ack, expCmd := c }

/-- The command an operation's send phase sends (R170 to R175). -/
def HostOp.command : HostOp → Command
  | .read => .requestRead
  | .request => .requestRead
  | .passive => .enterPassive
  | .active => .enterActive
  | .sleep => .sleep
  | .wake => .wake

/-- A command frame, executed: outstanding on the transmit port, it is answered by the transport's next draw, and the send
phase goes on; with no draw the block waits (60_exceptions.md R220). A frame that is not outstanding is `Encode(c)` alone,
which writes no state (41_encoder.md R140; log 16). -/
def cmdStep (c : Command) (s : State) : Out :=
  unlessFaulted s
    (if s.phase = .send ∧ s.txPort = some (cmdFrame s.cfg c) then
      match s.txAnswers with
      | [] => .next s
      | a :: rest => .next (sendAnswered c a { s with txAnswers := rest })
    else .next s)

end Sys2Proof.Machine
end

