-- ==== Sys2Proof/Machine/CmdFrames.lean ====
section
/-! DEFINITION. The command frames of the transmit port (41_encoder.md R142 to R146). -/

namespace Sys2Proof.Machine

/-- EnterPassive (R142). -/
def execCmdEnterPassive (s : State) : Out := cmdStep .enterPassive s

/-- EnterActive (R143). -/
def execCmdEnterActive (s : State) : Out := cmdStep .enterActive s

/-- RequestRead (R144). -/
def execCmdRequestRead (s : State) : Out := cmdStep .requestRead s

/-- Sleep (R145). -/
def execCmdSleep (s : State) : Out := cmdStep .sleep s

/-- Wake (R146). -/
def execCmdWake (s : State) : Out := cmdStep .wake s

end Sys2Proof.Machine
end

