-- ==== Sys2Proof/Machine/HostOps.lean ====
section
/-! DEFINITION. The host operations: HOST_OP codes 0 to 7 (42_operations.md R170 to R175, 30_encoding.md R82). -/

namespace Sys2Proof.Machine

/-- READ's first step (R170): in Active mode no command is sent, in Passive mode it is REQUEST. -/
def readFirst (s : State) : State :=
  let t := { s with expect := .meas }
  if t.reportMode = .active then recvStart t else sendPhase .requestRead t

/-- REQUEST's first step (R171). -/
def requestFirst (s : State) : State := sendPhase .requestRead { s with expect := .meas }

/-- READ (R170). -/
def execRead (s : State) : Out := startOp .read readFirst s

/-- REQUEST (R171). -/
def execRequest (s : State) : Out := startOp .request requestFirst s

/-- PASSIVE (R172). -/
def execPassive (s : State) : Out := startOp .passive (modeFirst .enterPassive) s

/-- ACTIVE (R173). -/
def execActive (s : State) : Out := startOp .active (modeFirst .enterActive) s

/-- SLEEP (R174). -/
def execSleep (s : State) : Out := startOp .sleep (modeFirst .sleep) s

/-- WAKE (R175). -/
def execWake (s : State) : Out := startOp .wake (modeFirst .wake) s

/-- Code 6 (30_encoding.md R82). -/
def execReservedOp6 (s : State) : Out := startReserved s

/-- Code 7 (30_encoding.md R82). -/
def execReservedOp7 (s : State) : Out := startReserved s

end Sys2Proof.Machine
end

