-- ==== Sys2Proof/Syntax.lean ====
section
/-! DEFINITION. The instructions: one constructor per row of spec/opcode_table.json. -/

namespace Sys2Proof

/-- The 19 rows of the opcode table: host operation codes (30_encoding.md R80, R82), command frames (R71), and received
frames (R72, R73, R148). Only the received frames carry operands. -/
inductive Instr where
  /-- HOST_OP 0, `read()` (R170). -/
  | read
  /-- HOST_OP 1, `request()` (R171). -/
  | request
  /-- HOST_OP 2, `passive()` (R172). -/
  | passive
  /-- HOST_OP 3, `active()` (R173). -/
  | active
  /-- HOST_OP 4, `sleep()` (R174). -/
  | sleep
  /-- HOST_OP 5, `wake()` (R175). -/
  | wake
  /-- HOST_OP 6, reserved (R82). -/
  | reservedOp6
  /-- HOST_OP 7, reserved (R82). -/
  | reservedOp7
  /-- CMD7 frame of EnterPassive (R142). -/
  | cmdEnterPassive
  /-- CMD7 frame of EnterActive (R143). -/
  | cmdEnterActive
  /-- CMD7 frame of RequestRead (R144). -/
  | cmdRequestRead
  /-- CMD7 frame of Sleep (R145). -/
  | cmdSleep
  /-- CMD7 frame of Wake (R146). -/
  | cmdWake
  /-- A frame of shape RX_MEAS with any 13 fields and any checksum bytes (R72, R108). -/
  | rxMeas (fields : OutputFrame) (chk : Half)
  /-- A frame of shape RX_ACK with any payload and any checksum bytes, other than the four below (R73, R109). -/
  | rxAck (payload : List Byte) (chk : Half)
  /-- The acknowledgement of EnterPassive (R148, R172). -/
  | rxAckEnterPassive
  /-- The acknowledgement of EnterActive (R148, R173). -/
  | rxAckEnterActive
  /-- The acknowledgement of Sleep (R148, R174). -/
  | rxAckSleep
  /-- The acknowledgement of Wake (R148, R175). -/
  | rxAckWake
  deriving DecidableEq, Repr

end Sys2Proof
end

