-- ==== Sys2Proof/WellFormed.lean ====
section
/-! DEFINITION. Which terms of `Instr` stand for an encoding, under a choice of the parameters. -/

namespace Sys2Proof

/-- A generic acknowledgement has a payload of `ACK_LEN - 2` bytes (40_decoder.md R110). -/
abbrev ackPayloadFits (cfg : Config) (payload : List Byte) : Prop := payload.length = cfg.ackLen.toNat - 2

/-- A generic acknowledgement is none of the four frames of 41_encoder.md R148: those have rows of their own. -/
abbrev ackIsGeneric (cfg : Config) (payload : List Byte) (chk : Half) : Prop :=
  ∀ c ∈ Command.acked, payload = cfg.ackPayload.get c → chk ≠ sum16 (rxHead cfg.ackLen payload)

/-- The instruction stands for an encoding: only the generic acknowledgement has something to check. -/
def Instr.WF (cfg : Config) : Instr → Bool
  | .rxAck payload chk => decide (ackPayloadFits cfg payload ∧ ackIsGeneric cfg payload chk)
  | .read | .request | .passive | .active | .sleep | .wake | .reservedOp6 | .reservedOp7 => true
  | .cmdEnterPassive | .cmdEnterActive | .cmdRequestRead | .cmdSleep | .cmdWake => true
  | .rxMeas _ _ => true
  | .rxAckEnterPassive | .rxAckEnterActive | .rxAckSleep | .rxAckWake => true

end Sys2Proof
end

