-- ==== Sys2Proof/Decode.lean ====
section
/-! DEFINITION. The decoder of the three formats, total and rejecting by name, and the encoder beside it
(30_encoding.md R70 to R82, 41_encoder.md R141, R148). -/

namespace Sys2Proof

/-- The port an encoding travels on; it fixes the format (30_encoding.md, opening). -/
inductive Port where
  /-- Operation port: HOST_OP, one byte holding a 3-bit code. -/
  | host
  /-- Transmit port: CMD7. -/
  | tx
  /-- Receive port: RX_MEAS and RX_ACK. -/
  | rx
  deriving DecidableEq, Repr

/-- Why bytes stand for no instruction. -/
inductive Reject where
  /-- Fewer bytes than the format or the length field asks for. -/
  | truncated
  /-- More bytes than the format or the length field asks for. -/
  | trailingBytes
  /-- A host operation byte above 7: the code has 3 bits (R80). -/
  | badOpCode
  /-- The frame does not open with `42 4D` (R70). -/
  | badHeader
  /-- A declared length no shape has (R75). -/
  | badLength
  /-- A command frame whose checksum is not the sum of its first five bytes (R71). -/
  | badCommandChecksum
  /-- A command frame whose (OPC, DATA) pair is no row of `CMD_TABLE` (R141). -/
  | notACommand
  deriving DecidableEq, Repr

/-- The port of an instruction's format. -/
def Instr.port : Instr → Port
  | .read | .request | .passive | .active | .sleep | .wake | .reservedOp6 | .reservedOp7 => .host
  | .cmdEnterPassive | .cmdEnterActive | .cmdRequestRead | .cmdSleep | .cmdWake => .tx
  | .rxMeas _ _ | .rxAck _ _ => .rx
  | .rxAckEnterPassive | .rxAckEnterActive | .rxAckSleep | .rxAckWake => .rx

/-- The operation code table of R80 and R82: every 3-bit code has a row. -/
def decodeHostOp (code : BitVec 3) : Instr :=
  match code.toNat with
  | 0 => .read
  | 1 => .request
  | 2 => .passive
  | 3 => .active
  | 4 => .sleep
  | 5 => .wake
  | 6 => .reservedOp6
  | _ => .reservedOp7

/-- The command-frame row of a command (R142 to R146). -/
def cmdInstr : Command → Instr
  | .enterPassive => .cmdEnterPassive
  | .enterActive => .cmdEnterActive
  | .requestRead => .cmdRequestRead
  | .sleep => .cmdSleep
  | .wake => .cmdWake

/-- The acknowledgement row of a command; RequestRead has none (R148), and no caller asks for it. -/
def ackInstr (payload : List Byte) (chk : Half) : Command → Instr
  | .enterPassive => .rxAckEnterPassive
  | .enterActive => .rxAckEnterActive
  | .requestRead => .rxAck payload chk
  | .sleep => .rxAckSleep
  | .wake => .rxAckWake

/-- One byte of the operation port. -/
def decodeHost : List Byte → Except Reject Instr
  | [] => .error .truncated
  | [b] => if b.toNat < 8 then .ok (decodeHostOp (b.setWidth 3)) else .error .badOpCode
  | _ => .error .trailingBytes

/-- The command whose `CMD_TABLE` row is (opc, data), if any. DESIGN CHOICE (log 26): where a choice of the table gives two
commands one pair, the first in R141's order; R77 says only that the default's pairs are distinct. -/
def commandOf (cfg : Config) (opc : Byte) (data : Half) : Option Command :=
  Command.all.find? fun c => cfg.cmdTable.get c = ⟨opc, data⟩

/-- The seven bytes of a command frame (R71). -/
def decodeCmd (cfg : Config) : List Byte → Except Reject Instr
  | [b0, b1, opc, dh, dl, ch, cl] =>
    if b0 ≠ hdr0 ∨ b1 ≠ hdr1 then .error .badHeader
    else if be16 ch cl ≠ sum16 [b0, b1, opc, dh, dl] then .error .badCommandChecksum
    else match commandOf cfg opc (be16 dh dl) with
      | some c => .ok (cmdInstr c)
      | none => .error .notACommand
  | bs => if bs.length < 7 then .error .truncated else .error .trailingBytes

/-- The row of an acknowledgement frame: one of the four of R148 where payload and checksum are exactly its own, else the
generic row. DESIGN CHOICE (log 22), also that the first in R148's order names a payload two commands share. -/
def decodeAck (cfg : Config) (payload : List Byte) (chk : Half) : Instr :=
  if chk = sum16 (rxHead cfg.ackLen payload) then
    match Command.acked.find? fun c => cfg.ackPayload.get c = payload with
    | some c => ackInstr payload chk c
    | none => .rxAck payload chk
  else .rxAck payload chk

/-- A received frame: header, LEN, then LEN bytes of which the last two are CHK (R72 to R75). A wrong checksum is no
rejection: it is an operand, judged by the machine (40_decoder.md R106). -/
def decodeRx (cfg : Config) : List Byte → Except Reject Instr
  | b0 :: b1 :: b2 :: b3 :: rest =>
    if b0 ≠ hdr0 ∨ b1 ≠ hdr1 then .error .badHeader
    else if be16 b2 b3 ≠ measLen ∧ be16 b2 b3 ≠ cfg.ackLen then .error .badLength
    else if rest.length < (be16 b2 b3).toNat then .error .truncated
    else if (be16 b2 b3).toNat < rest.length then .error .trailingBytes
    else
      let n := (be16 b2 b3).toNat - 2
      let chk := be16 (rest.getD n 0) (rest.getD (n + 1) 0)
      if be16 b2 b3 = measLen then .ok (.rxMeas (fieldsOf (rest.take n)) chk)
      else .ok (decodeAck cfg (rest.take n) chk)
  | _ => .error .truncated

/-- The decoder: total on any bytes of any port. -/
def decode (cfg : Config) : Port → List Byte → Except Reject Instr
  | .host => decodeHost
  | .tx => decodeCmd cfg
  | .rx => decodeRx cfg

/-- The encoder: the bytes of a well-formed instruction, from R80, R71 with R141, R72, R73 and R148. -/
def encode (cfg : Config) : Instr → List Byte
  | .read => [0]
  | .request => [1]
  | .passive => [2]
  | .active => [3]
  | .sleep => [4]
  | .wake => [5]
  | .reservedOp6 => [6]
  | .reservedOp7 => [7]
  | .cmdEnterPassive => cmdFrame cfg .enterPassive
  | .cmdEnterActive => cmdFrame cfg .enterActive
  | .cmdRequestRead => cmdFrame cfg .requestRead
  | .cmdSleep => cmdFrame cfg .sleep
  | .cmdWake => cmdFrame cfg .wake
  | .rxMeas f chk => measFrame f chk
  | .rxAck payload chk => rxHead cfg.ackLen payload ++ beBytes16 chk
  | .rxAckEnterPassive => ackFrame cfg .enterPassive
  | .rxAckEnterActive => ackFrame cfg .enterActive
  | .rxAckSleep => ackFrame cfg .sleep
  | .rxAckWake => ackFrame cfg .wake

/-- `n` bytes of a number whose most significant byte is the first on the wire: the numbering of 30_encoding.md R71
(`W[55:48]` is byte 0) and of the opcode table's match and mask (log 20). -/
def wordBytes : Nat → Nat → List Byte
  | 0, _ => []
  | n + 1, w => BitVec.ofNat 8 (w >>> (8 * n)) :: wordBytes n w

/-- A received frame's known first bytes, continued with zeros to the length its LEN field asks for, at most the 32 bytes
of the longest frame. -/
def padFrame (bs : List Byte) : List Byte :=
  (bs ++ List.replicate 32 0).take (max bs.length (4 + (be16 (bs.getD 2 0) (bs.getD 3 0)).toNat))

/-- The port of a table row, by its width: 8 bits HOST_OP, 56 bits CMD7, 32 or 64 bits a received frame. -/
def tablePort (nbits : Nat) : Port := if nbits ≤ 8 then .host else if nbits = 56 then .tx else .rx

/-- The bytes of a table word on its port. -/
def tableBytes (nbits w : Nat) : List Byte :=
  match tablePort nbits with
  | .host => wordBytes 1 w
  | .tx => wordBytes 7 w
  | .rx => padFrame (wordBytes (nbits / 8) w)

/-- The instruction the decoder reads from a table word, under the default parameters the table is written for. -/
def decodeTableWord (nbits w : Nat) : Option Instr :=
  match decode Config.default (tablePort nbits) (tableBytes nbits w) with
  | .ok i => some i
  | .error _ => none

end Sys2Proof
end

