-- ==== Sys2Proof/Machine/RxFrames.lean ====
section
/-! DEFINITION. The frames of the receive port: measurement, acknowledgement, and the four acknowledgements of
41_encoder.md R148 (40_decoder.md R106 to R109, 42_operations.md R162). -/

namespace Sys2Proof.Machine

/-- RX_MEAS (R108). -/
def execRxMeas (fields : OutputFrame) (chk : Half) (s : State) : Out := rxFrame (encode s.cfg (.rxMeas fields chk)) s

/-- RX_ACK (R109). -/
def execRxAck (payload : List Byte) (chk : Half) (s : State) : Out := rxFrame (encode s.cfg (.rxAck payload chk)) s

/-- The acknowledgement of EnterPassive (R148, 42_operations.md R172). -/
def execRxAckEnterPassive (s : State) : Out := rxFrame (encode s.cfg .rxAckEnterPassive) s

/-- The acknowledgement of EnterActive (R148, 42_operations.md R173). -/
def execRxAckEnterActive (s : State) : Out := rxFrame (encode s.cfg .rxAckEnterActive) s

/-- The acknowledgement of Sleep (R148, 42_operations.md R174). -/
def execRxAckSleep (s : State) : Out := rxFrame (encode s.cfg .rxAckSleep) s

/-- The acknowledgement of Wake (R148, 42_operations.md R175). -/
def execRxAckWake (s : State) : Out := rxFrame (encode s.cfg .rxAckWake) s

end Sys2Proof.Machine
end

