-- ==== Sys2Proof/Machine/Dispatch.lean ====
section
/-! DEFINITION. One arm per instruction. -/

namespace Sys2Proof.Machine

/-- The meaning of an instruction in a state. -/
def exec (i : Instr) (s : State) : Host.Outcome State Fault Refusal :=
  match i with
  | .read => Sys2Proof.Machine.execRead s
  | .request => Sys2Proof.Machine.execRequest s
  | .passive => Sys2Proof.Machine.execPassive s
  | .active => Sys2Proof.Machine.execActive s
  | .sleep => Sys2Proof.Machine.execSleep s
  | .wake => Sys2Proof.Machine.execWake s
  | .reservedOp6 => Sys2Proof.Machine.execReservedOp6 s
  | .reservedOp7 => Sys2Proof.Machine.execReservedOp7 s
  | .cmdEnterPassive => Sys2Proof.Machine.execCmdEnterPassive s
  | .cmdEnterActive => Sys2Proof.Machine.execCmdEnterActive s
  | .cmdRequestRead => Sys2Proof.Machine.execCmdRequestRead s
  | .cmdSleep => Sys2Proof.Machine.execCmdSleep s
  | .cmdWake => Sys2Proof.Machine.execCmdWake s
  | .rxMeas fields chk => Sys2Proof.Machine.execRxMeas fields chk s
  | .rxAck payload chk => Sys2Proof.Machine.execRxAck payload chk s
  | .rxAckEnterPassive => Sys2Proof.Machine.execRxAckEnterPassive s
  | .rxAckEnterActive => Sys2Proof.Machine.execRxAckEnterActive s
  | .rxAckSleep => Sys2Proof.Machine.execRxAckSleep s
  | .rxAckWake => Sys2Proof.Machine.execRxAckWake s

end Sys2Proof.Machine
end

