-- ==== Sys2Proof/Machine/Fetch.lean ====
section
/-! DEFINITION. Where each format's next instruction stands, and how a table word is placed there. There is no
instruction memory (20_memory.md R51, R64): a host code stands at the head of `inputs`, a command frame on the transmit
port, a received frame in the decoder's buffer with its last byte next on the stream (log 20). -/

namespace Sys2Proof.Machine

/-- The received frame the decoder holds, as an instruction; `none` where it decodes to none. -/
def fetchFrame (s : State) : Option Instr :=
  match decode s.cfg .rx (heldFrame s) with
  | .ok i => some i
  | .error _ => none

/-- The operation whose send phase sends the frame, for the table's default frames; REQUEST for RequestRead. -/
def senderOf : List Byte → HostOp := fun bytes =>
  match decode Config.default .tx bytes with
  | .ok .cmdEnterPassive => .passive
  | .ok .cmdEnterActive => .active
  | .ok .cmdSleep => .sleep
  | .ok .cmdWake => .wake
  | _ => .request

/-- The buffer that holds these bytes from index `a` on. -/
def loadBytes : Memory → Nat → List Byte → Memory
  | m, _, [] => m
  | m, a, b :: bs => loadBytes (m.write a b) (a + 1) bs

/-- The state whose next event is `start(code)`: nothing the block waits for is answered first. -/
def placeStart (code : BitVec 3) (s : State) : State :=
  { s with
    inputs := .start code :: s.inputs
    txAnswers := if s.phase = .send then [] else s.txAnswers
    rxStream := if s.phase = .recv then [] else s.rxStream }

/-- The state whose outstanding send is these bytes, which the transport takes. -/
def placeCommand (bytes : List Byte) (s : State) : State :=
  { s with phase := .send, op := senderOf bytes, txPort := some bytes, txAnswers := .ok :: s.txAnswers }

/-- The state whose receive phase has all but the last of these bytes, the last being next on the stream. -/
def placeFrame (bytes : List Byte) (s : State) : State :=
  { s with
    phase := .recv
    decState := .body
    decIdx := bytes.length - 1
    decLen := be16 (bytes.getD 2 0) (bytes.getD 3 0)
    buf := loadBytes s.buf 0 bytes.dropLast
    rxStream := .byte (bytes.getLastD 0) :: s.rxStream }

/-- A table word placed where the next step takes it from. -/
def placeWord (nbits w : Nat) (s : State) : State :=
  match tablePort nbits with
  | .host => placeStart (BitVec.ofNat 3 w) s
  | .tx => placeCommand (tableBytes nbits w) s
  | .rx => placeFrame (tableBytes nbits w) s

end Sys2Proof.Machine
end

