-- ==== Sys2Proof/Machine/Step.lean ====
section
/-! DEFINITION. One step: one event of the block (00_scope.md R14, D1). -/

namespace Sys2Proof.Machine

/-- A complete frame is run in the step that takes its last byte (40_decoder.md R105): as the instruction it decodes to.
A held frame that decodes to none has a header or a length no rule lets the decoder hold; it is validated as R106 says
(log 23). -/
def runFrame (s : State) : Host.Outcome State Fault Refusal :=
  if frameComplete s then
    match fetchFrame s with
    | some i => exec i s
    | none => validate s
  else .next s

/-- One step of the machine. A waiting machine steps to itself (60_exceptions.md R220; log 13). -/
def step (s : State) : Host.Outcome State Fault Refusal :=
  match nextEvent s with
  | .stopped => .refused .faulted
  | .reset rest => .next (resetBlock { s with inputs := rest })
  | .txAnswered => exec (cmdInstr s.op.command) s
  | .rxAnswered a rest => andThen (recvAnswer a { s with rxStream := rest }) runFrame
  | .start code rest => exec (decodeHostOp code) { s with inputs := rest }
  | .txDraw a rest => .next { s with inputs := rest, txAnswers := s.txAnswers ++ [a] }
  | .rxDraw a rest => .next { s with inputs := rest, rxStream := s.rxStream ++ [a] }
  | .dropped rest => .next { s with inputs := rest }
  | .waiting => .next s

/-- The table word placed where the next step fetches it (log 20). -/
def State.withFetchWord (s : State) (nbits w : Nat) : State := placeWord nbits w s

end Sys2Proof.Machine
end

