-- ==== Sys2Proof/Machine/Flags.lean ====
section
/-! DEFINITION. The numbers of the named values and the STATUS view (10_state.md R23, R33; 30_encoding.md R80, R85). The
block has no condition flags (R35). -/

namespace Sys2Proof.Machine

/-- Active = 0, Passive = 1 (R23). -/
def reportBit : ReportMode → Bool
  | .active => false
  | .passive => true

/-- Awake = 0, Asleep = 1 (R23). -/
def powerBit : PowerMode → Bool
  | .awake => false
  | .asleep => true

/-- The result code (R85). -/
def OpResult.code : OpResult → BitVec 3
  | .ok => 0
  | .err .checksumError => 1
  | .err .readFailed => 2
  | .err .sendFailed => 3
  | .err .incorrectResponse => 4
  | .err .noResponse => 5
  | .none => 7

/-- The operation code (R80). -/
def HostOp.code : HostOp → BitVec 3
  | .read => 0
  | .request => 1
  | .passive => 2
  | .active => 3
  | .sleep => 4
  | .wake => 5

/-- BUSY: 1 when `phase != IDLE` (R33). -/
def busy (s : State) : Bool := decide (s.phase ≠ .idle)

/-- The 8-bit STATUS word (R33): FAULT, LAST_RESULT, FRAME_VALID, BUSY, POWER, REPORT from bit 7 down. -/
def State.status (s : State) : BitVec 8 :=
  BitVec.ofBool s.fault ++ s.lastResult.code ++ BitVec.ofBool s.outValid ++ BitVec.ofBool (busy s) ++
    BitVec.ofBool (powerBit s.powerMode) ++ BitVec.ofBool (reportBit s.reportMode)

end Sys2Proof.Machine
end

