-- ==== Sys2Proof/Safety.lean ====
section
/-! DEFINITION. What the statements call a good state: the invariant of the block, runs of steps, and the words used for
streams and frames. -/

namespace Sys2Proof.Machine

/-- `expect` and `expCmd` are those of the operation in progress (10_state.md R26, 42_operations.md R170 to R175). -/
def ExpectsItsOp (s : State) : Prop :=
  match s.op with
  | .read | .request => s.expect = .meas
  | .passive | .active | .sleep | .wake => s.expect = .ack ∧ s.expCmd = s.op.command

/-- The magic header stands in the first two bytes of the buffer (30_encoding.md R70). -/
def HeaderHeld (s : State) : Prop := s.buf.read 0 = hdr0 ∧ s.buf.read 1 = hdr1

/-- The decoder registers while a receive phase waits for a byte (10_state.md R27, R28; 40_decoder.md R102 to R105). -/
def DecoderOk (s : State) : Prop :=
  match s.decState with
  | .hunt0 | .hunt1 => s.decIdx = 0
  | .len => (s.decIdx = 2 ∨ s.decIdx = 3) ∧ HeaderHeld s
  | .body => (s.decLen = measLen ∨ s.decLen = s.cfg.ackLen) ∧ 4 ≤ s.decIdx ∧ s.decIdx < frameLen s ∧
      HeaderHeld s ∧ s.buf.read16 2 = s.decLen

/-- The invariant of the block: it holds after reset and every step keeps it. -/
structure Inv (s : State) : Prop where
  /-- The parameters meet 40_decoder.md R110. -/
  cfg_wf : s.cfg.WF
  /-- The buffer is in its canonical form. -/
  buf_wf : s.buf.wf = true
  /-- `dec_idx` is 0 to 32 (10_state.md R28). -/
  idx_le : s.decIdx ≤ bufSize
  /-- A send is outstanding exactly in SEND, and it is the operation's command (20_memory.md R53). -/
  port : s.txPort = if s.phase = .send then some (cmdFrame s.cfg s.op.command) else none
  /-- While an operation runs, `expect` and `expCmd` are its own. -/
  expects : s.phase ≠ .idle → ExpectsItsOp s
  /-- READ sends only in Passive mode (42_operations.md R170). -/
  quiet : s.phase = .send → s.op = .read → s.reportMode = .passive
  /-- While receiving, the decoder registers fit each other. -/
  decoder : s.phase = .recv → DecoderOk s

/-- `k` steps, stopping at the first stop. -/
def run : Nat → State → Out
  | 0, s => .next s
  | k + 1, s => andThen (step s) (run k)

/-- The next step is no reset. -/
abbrev NoReset (s : State) : Prop := ∀ rest, nextEvent s ≠ .reset rest

/-- The input is a transport answer and no byte of the stream: an answer to a send, an error for a pull, or a late answer to a
request a reset has cut (20_memory.md R52, R53; 70_reset_and_hazards.md R232). -/
def Input.isAnswer : Input → Bool
  | .start _ | .reset | .rx (.byte _) => false
  | .tx _ | .rx .noResponse | .rx .readFailed | .lateTx _ | .lateRx _ => true

/-- No fault, and no answer is there for the request that is outstanding, if any: the next input moves next (log 1). -/
abbrev Waiting (s : State) : Prop :=
  s.fault = false ∧ (s.phase = .send → s.txAnswers = []) ∧ (s.phase = .recv → s.rxStream = [])

/-- A stream of bytes, as the transport's draws. -/
def byteDraws (bs : List Byte) : List RxAnswer := bs.map .byte

/-- No two adjacent bytes `42 4D` (40_decoder.md R114). -/
abbrev NoHeader : List Byte → Prop
  | b0 :: b1 :: bs => ¬ (b0 = hdr0 ∧ b1 = hdr1) ∧ NoHeader (b1 :: bs)
  | _ => True

/-- The list with bit `k` of byte `i` flipped. -/
def flipBit (bs : List Byte) (i k : Nat) : List Byte := bs.modify i fun b => b ^^^ (1#8 <<< k)

/-- The right checksum of a measurement frame of `f` (30_encoding.md R72). -/
def measSum (f : OutputFrame) : Half := sum16 (rxHead measLen (fieldBytes f))

/-- The right checksum of an acknowledgement with payload `p` (30_encoding.md R73). -/
def ackSum (cfg : Config) (p : List Byte) : Half := sum16 (rxHead cfg.ackLen p)

/-- A receive phase at its start with this stream before it: RECV and HUNT0 with no fault (40_decoder.md R101), the buffer
in its canonical form. -/
abbrev Receiving (s : State) (stream : List RxAnswer) : Prop :=
  s.fault = false ∧ s.buf.wf = true ∧ s.phase = .recv ∧ s.decState = .hunt0 ∧ s.rxStream = stream

/-- `s` with its operation ended by the error `e` (60_exceptions.md R201), every other element as it was. -/
abbrev endedBy (e : ErrorKind) (s : State) : State :=
  { s with lastResult := .err e, phase := .idle, doneLog := s.doneLog ++ [⟨.err e, none⟩] }

/-- `s` with its operation ended successfully with result `r` (42_operations.md R161), every other element as it was. -/
abbrev endedOk (r : Option OutputFrame) (s : State) : State :=
  { s with lastResult := .ok, phase := .idle, doneLog := s.doneLog ++ [⟨.ok, r⟩] }

end Sys2Proof.Machine
end

