-- ==== Sys2Proof/Certificates/Slice0/Obligations.lean ====
section
/-! DEFINITION. The statements for the provers. Every one is about every state, or every state that meets the hypotheses it
names; none is about a program. -/

open Sys2Proof Sys2Proof.Machine

/-! ### Encoding -/

/-- Rows of the opcode table, written out from 30_encoding.md R71, R72, R73, R80 and 41_encoder.md R141, R148, decode to
their instructions. That a measurement prefix is continued with zeros is the model's reading of a short table word (log 20);
that an acknowledgement with a wrong checksum is the generic row is the model's choice (log 22). -/
def Obligations.TableWordsDecodeToTheirRows : Prop :=
  decodeTableWord 8 0b000 = some .read ∧ decodeTableWord 8 0b101 = some .wake ∧
  decodeTableWord 8 0b110 = some .reservedOp6 ∧
  decodeTableWord 56 0x424DE100000170 = some .cmdEnterPassive ∧
  decodeTableWord 56 0x424DE400010174 = some .cmdWake ∧
  decodeTableWord 64 0x424D0004E1010175 = some .rxAckEnterActive ∧
  decodeTableWord 64 0x424D0004E4000177 = some .rxAckSleep ∧
  decodeTableWord 64 0x424D0004E4000178 = some (.rxAck [0xE4, 0x00] 0x0178) ∧
  (∃ f, decodeTableWord 32 0x424D001C = some (.rxMeas f 0) ∧ f.fields = List.replicate 13 0) ∧
  decodeTableWord 32 0x424D001D = none

/-- Decoding an encoded well-formed instruction gives it back, for all 19 rows, every operand, and every choice of the
parameters that meets R110 and tells the commands apart. -/
def Obligations.DecodeOfEncodeIsTheInstruction : Prop :=
  ∀ (cfg : Config) (i : Instr), cfg.WF → cfg.Distinct → i.WF cfg = true →
    decode cfg i.port (encode cfg i) = .ok i

/-- Bytes that decode to an instruction are that instruction's encoding, on the port they came from, and the instruction
is well-formed: no two byte strings share an instruction and nothing ill-formed is decoded. -/
def Obligations.EncodeOfDecodedIsTheBytes : Prop :=
  ∀ (cfg : Config) (p : Port) (bs : List Byte) (i : Instr), cfg.WF → decode cfg p bs = .ok i →
    i.port = p ∧ encode cfg i = bs ∧ i.WF cfg = true

/-- Encode(c) for every command and every table (41_encoder.md R140, R147): seven bytes, header, opcode, big-endian data,
and the big-endian checksum of the first five, which never exceeds 0x038C. -/
def Obligations.CommandFrameLayout : Prop :=
  ∀ (cfg : Config) (c : Command),
    let e := cfg.cmdTable.get c
    let chk := sum16 [0x42, 0x4D, e.opc, hi8 e.data, lo8 e.data]
    cmdFrame cfg c = [0x42, 0x4D, e.opc, hi8 e.data, lo8 e.data, hi8 chk, lo8 chk] ∧
    be16 (hi8 chk) (lo8 chk) = chk ∧ chk.toNat ≤ 0x38C ∧
    chk.toNat = 0x42 + 0x4D + e.opc.toNat + (hi8 e.data).toNat + (lo8 e.data).toNat

/-- The five command frames and the four acknowledgements of the default parameters (R141, R148). The values are the spec's
from general knowledge (log 3, log 4). -/
def Obligations.DefaultFramesOfTheTables : Prop :=
  cmdFrame Config.default .enterPassive = [0x42, 0x4D, 0xE1, 0x00, 0x00, 0x01, 0x70] ∧
  cmdFrame Config.default .enterActive = [0x42, 0x4D, 0xE1, 0x00, 0x01, 0x01, 0x71] ∧
  cmdFrame Config.default .requestRead = [0x42, 0x4D, 0xE2, 0x00, 0x00, 0x01, 0x71] ∧
  cmdFrame Config.default .sleep = [0x42, 0x4D, 0xE4, 0x00, 0x00, 0x01, 0x73] ∧
  cmdFrame Config.default .wake = [0x42, 0x4D, 0xE4, 0x00, 0x01, 0x01, 0x74] ∧
  ackFrame Config.default .enterPassive = [0x42, 0x4D, 0x00, 0x04, 0xE1, 0x00, 0x01, 0x74] ∧
  ackFrame Config.default .enterActive = [0x42, 0x4D, 0x00, 0x04, 0xE1, 0x01, 0x01, 0x75] ∧
  ackFrame Config.default .sleep = [0x42, 0x4D, 0x00, 0x04, 0xE4, 0x00, 0x01, 0x77] ∧
  ackFrame Config.default .wake = [0x42, 0x4D, 0x00, 0x04, 0xE4, 0x01, 0x01, 0x78]

/-- R111: the sum of the checked bytes never wraps. At most 0x1A91 for a measurement frame, reached by a frame of all ones;
for an acknowledgement at most what its header, its length and 255 for each payload byte come to, under every choice of the
parameters that R110 admits, and reached; 0x0291 with the default layout's two payload bytes (log 4). The last clause is the
rule's own: every frame the decoder can hold complete, whatever its bytes. -/
def Obligations.ChecksumOfAcceptedFramesNeverWraps : Prop :=
  (∀ f : OutputFrame, plainSum (rxHead measLen (fieldBytes f)) ≤ 0x1A91 ∧
    (measSum f).toNat = plainSum (rxHead measLen (fieldBytes f))) ∧
  (∃ f : OutputFrame, plainSum (rxHead measLen (fieldBytes f)) = 0x1A91) ∧
  (∀ (cfg : Config) (p : List Byte), cfg.WF → ackPayloadFits cfg p →
    plainSum (rxHead cfg.ackLen p) ≤ 0x8F + cfg.ackLen.toNat + (cfg.ackLen.toNat - 2) * 0xFF ∧
    (ackSum cfg p).toNat = plainSum (rxHead cfg.ackLen p)) ∧
  (∀ cfg : Config, cfg.WF → ∃ p : List Byte, ackPayloadFits cfg p ∧
    plainSum (rxHead cfg.ackLen p) = 0x8F + cfg.ackLen.toNat + (cfg.ackLen.toNat - 2) * 0xFF) ∧
  (∀ p : List Byte, p.length = 2 → plainSum (rxHead 4 p) ≤ 0x291) ∧
  (∃ p : List Byte, p.length = 2 ∧ plainSum (rxHead 4 p) = 0x291) ∧
  (∀ s : State, s.cfg.WF → (s.decLen = measLen ∨ s.decLen = s.cfg.ackLen) →
    let checked := s.buf.readBytes 0 (frameLen s - 2)
    (sum16 checked).toNat = plainSum checked)

/-! ### Reset -/

/-- R230 under every choice of the parameters: the state of the machine after reset, and the elements a reset during a run
leaves. The elements R36 calls unspecified are not mentioned. -/
def Obligations.ResetGivesTheResetValues : Prop :=
  (∀ cfg : Config, let s := State.resetWith cfg
    s.phase = .idle ∧ s.reportMode = cfg.initReportMode ∧ s.powerMode = cfg.initPowerMode ∧ s.decState = .hunt0 ∧
    s.decIdx = 0 ∧ s.outValid = false ∧ s.lastResult = .none ∧ s.fault = false) ∧
  State.reset = State.resetWith Config.default ∧
  (∀ (s : State) (rest : List Input), nextEvent s = .reset rest → ∃ t, step s = .next t ∧
    t.phase = .idle ∧ t.reportMode = s.cfg.initReportMode ∧ t.powerMode = s.cfg.initPowerMode ∧ t.decState = .hunt0 ∧
    t.decIdx = 0 ∧ t.outValid = false ∧ t.lastResult = .none ∧ t.fault = false)

/-- With the default parameters STATUS reads 0x70 after reset (10_state.md R36). -/
def Obligations.StatusAfterResetIs70 : Prop := State.reset.status = 0x70

/-- R232: a reset abandons the operation in progress: no `done` is issued, the outstanding send or pull is dropped with the
answer owed to it (the first answer held for a send in SEND, an error at the stream's head in RECV), and the bytes not pulled
stay in the transport. That the answers to no cut request stay too is the model's choice (log 18). -/
def Obligations.ResetAbandonsTheOperation : Prop :=
  ∀ (s : State) (rest : List Input), nextEvent s = .reset rest → ∃ t, step s = .next t ∧
    t.doneLog = s.doneLog ∧ t.txPort = none ∧ t.txLog = s.txLog ∧ t.cfg = s.cfg ∧ t.inputs = rest ∧
    (s.fault = false → t.txAnswers = s.txAnswers ∧ t.rxStream = s.rxStream) ∧
    (s.phase = .send → t.txAnswers = s.txAnswers.tail) ∧ (s.phase ≠ .send → t.txAnswers = s.txAnswers) ∧
    (∀ b more, s.rxStream = .byte b :: more → t.rxStream = s.rxStream) ∧
    (s.phase = .recv → ∀ a more, s.rxStream = a :: more → (∀ b, a ≠ .byte b) → t.rxStream = more) ∧
    (s.phase ≠ .recv → t.rxStream = s.rxStream)

/-- R232, 93 U16: an answer that arrives after a reset for the send or pull it cut is dropped: whatever such answers stand
between the reset and the next input, the block comes to that input as if there had been none. Where the reset has cut no
request the same drop is the model's choice (log 17), and so is that a late byte is dropped with its answer (log 18). -/
def Obligations.ResetDropsTheAnswersOwed : Prop :=
  ∀ (s : State) (owed rest : List Input), nextEvent s = .reset (owed ++ rest) → (∀ i ∈ owed, i.isAnswer = true) →
    run (1 + owed.length) s = .next (resetBlock { s with inputs := rest })

/-- An answer reaches the block only for its outstanding request (R13, R213): a late answer to a request a reset has cut is
dropped in any phase, also while a new request is outstanding (R232), where that the environment says which answers are late,
and that a late byte is dropped with its answer, is the model's choice (log 18); an answer to a send outside SEND and a
pull's error outside RECV are dropped too, which is the model's choice where no reset has cut anything (log 17); every other
answer joins the answers of its port. Nothing else changes. -/
def Obligations.OnlyOutstandingRequestsAreAnswered : Prop :=
  ∀ (s : State) (rest : List Input), Waiting s →
    (∀ a, s.inputs = .lateTx a :: rest → step s = .next { s with inputs := rest }) ∧
    (∀ a, s.inputs = .lateRx a :: rest → step s = .next { s with inputs := rest }) ∧
    (∀ a, s.inputs = .tx a :: rest → s.phase ≠ .send → step s = .next { s with inputs := rest }) ∧
    (∀ a, s.inputs = .tx a :: rest → s.phase = .send → step s = .next { s with inputs := rest, txAnswers := [a] }) ∧
    (∀ a, s.inputs = .rx a :: rest → (∀ b, a ≠ .byte b) → s.phase ≠ .recv → step s = .next { s with inputs := rest }) ∧
    (∀ a, s.inputs = .rx a :: rest → s.phase = .recv → step s = .next { s with inputs := rest, rxStream := [a] }) ∧
    (∀ b, s.inputs = .rx (.byte b) :: rest →
      step s = .next { s with inputs := rest, rxStream := s.rxStream ++ [.byte b] })

/-- R231: an idle block sends nothing and pulls nothing until a start: any other event that is no reset leaves every element
of the block, the transmit port and the answers held for sends as they were. It is a wait, the drop of an answer no request
asked for (log 13, log 17), or the arrival of one byte, which joins the stream's end. -/
def Obligations.IdleBlockActsOnlyOnStart : Prop :=
  ∀ (s t : State), s.phase = .idle → (∀ code rest, nextEvent s ≠ .start code rest) → NoReset s → step s = .next t →
    t = { s with inputs := t.inputs, rxStream := t.rxStream } ∧
    (t = s ∨
     (∃ i, s.inputs = i :: t.inputs ∧ i.isAnswer = true ∧ t.rxStream = s.rxStream) ∨
     (∃ b, s.inputs = .rx (.byte b) :: t.inputs ∧ t.rxStream = s.rxStream ++ [.byte b]))

/-! ### The step runs the decoded instruction -/

/-- A start on the operation port: the step is `exec` of the instruction the code decodes to, on the state less that input. -/
def Obligations.StartStepRunsTheDecodedOperation : Prop :=
  ∀ (s : State) (code : BitVec 3) (rest : List Input), nextEvent s = .start code rest →
    decode s.cfg .host [code.setWidth 8] = .ok (decodeHostOp code) ∧
    step s = exec (decodeHostOp code) { s with inputs := rest }

/-- A send phase whose answer is there: the step is `exec` of the command frame of the operation in progress; the bytes
outstanding on the transmit port decode to that instruction wherever the table tells the commands apart. -/
def Obligations.SendStepRunsTheOutstandingCommand : Prop :=
  ∀ s : State, Inv s → s.fault = false → s.phase = .send → s.txAnswers ≠ [] →
    step s = exec (cmdInstr s.op.command) s ∧
    s.txPort = some (encode s.cfg (cmdInstr s.op.command)) ∧
    (s.cfg.Distinct → ∀ bytes, s.txPort = some bytes → decode s.cfg .tx bytes = .ok (cmdInstr s.op.command))

/-- The last byte of a frame: the step stores it, the buffer decodes to a received-frame instruction, and the step is `exec`
of that instruction on the state with the byte stored. -/
def Obligations.LastByteStepRunsTheDecodedFrame : Prop :=
  ∀ (s : State) (b : Byte) (rest : List RxAnswer), Inv s → s.fault = false → s.phase = .recv → s.decState = .body →
    s.decIdx + 1 = frameLen s → s.rxStream = .byte b :: rest →
    let t := { s with rxStream := rest, buf := s.buf.write s.decIdx b, decIdx := s.decIdx + 1 }
    ∃ i, decode s.cfg .rx (heldFrame t) = .ok i ∧ i.port = .rx ∧ holds t (encode s.cfg i) = true ∧ step s = exec i t

/-! ### The host operations -/

/-- READ accepted in Active mode: no command is sent, the receive phase starts. Every other element is unchanged. -/
def Obligations.ReadInActiveModeStartsReceiving : Prop :=
  ∀ s : State, s.fault = false → s.phase = .idle → s.reportMode = .active →
    exec .read s = .next { s with op := .read, expect := .meas, phase := .recv, decState := .hunt0, decIdx := 0 }

/-- READ accepted in Passive mode and REQUEST accepted in either mode hand the RequestRead frame to the transport. Every
other element is unchanged. -/
def Obligations.ReadInPassiveModeAndRequestSendRequestRead : Prop :=
  ∀ s : State, s.fault = false → s.phase = .idle →
    (s.reportMode = .passive → exec .read s = .next { s with
      op := .read, expect := .meas, phase := .send, txPort := some (cmdFrame s.cfg .requestRead) }) ∧
    exec .request s = .next { s with
      op := .request, expect := .meas, phase := .send, txPort := some (cmdFrame s.cfg .requestRead) }

/-- PASSIVE, ACTIVE, SLEEP and WAKE accepted in any SensorMode hand their command to the transport and await its
acknowledgement. Every other element is unchanged. -/
def Obligations.ModeOperationsSendTheirCommand : Prop :=
  ∀ s : State, s.fault = false → s.phase = .idle →
    exec .passive s = .next { s with op := .passive, expect := .ack, expCmd := .enterPassive, phase := .send,
                                     txPort := some (cmdFrame s.cfg .enterPassive) } ∧
    exec .active s = .next { s with op := .active, expect := .ack, expCmd := .enterActive, phase := .send,
                                    txPort := some (cmdFrame s.cfg .enterActive) } ∧
    exec .sleep s = .next { s with op := .sleep, expect := .ack, expCmd := .sleep, phase := .send,
                                   txPort := some (cmdFrame s.cfg .sleep) } ∧
    exec .wake s = .next { s with op := .wake, expect := .ack, expCmd := .wake, phase := .send,
                                  txPort := some (cmdFrame s.cfg .wake) }

/-- R82: a reserved code sets the fault mark and does nothing else, and the block takes no other step: every run from there
whose next input is no reset is refused. -/
def Obligations.ReservedCodesSetTheFaultMark : Prop :=
  ∀ s : State, s.fault = false →
    exec .reservedOp6 s = .next { s with fault := true } ∧ exec .reservedOp7 s = .next { s with fault := true } ∧
    ((∀ rest, s.inputs ≠ .reset :: rest) → step { s with fault := true } = .refused .faulted)

/-- R160: a start while an operation is in progress sets the fault mark and does nothing else, whatever its code. -/
def Obligations.StartWhileBusySetsTheFaultMark : Prop :=
  ∀ (s : State) (code : BitVec 3), s.fault = false → s.phase ≠ .idle →
    exec (decodeHostOp code) s = .next { s with fault := true }

/-- R32 and R221: with the fault mark set no instruction has a next state and no step but a reset has one; after any step the
mark is clear only if it was clear or the step was a reset; and only a start, while busy or of a reserved code, sets it. That
the refusal covers every row of the table, the command and received frames included, is the model's choice (log 24); that a
reset is exempt from it is the model's reading of R32 (log 14). -/
def Obligations.FaultedBlockTakesNoStepButReset : Prop :=
  (∀ (s : State) (i : Instr), s.fault = true → exec i s = .refused .faulted) ∧
  (∀ s : State, s.fault = true → NoReset s → step s = .refused .faulted) ∧
  (∀ s t : State, step s = .next t → t.fault = false → NoReset s → s.fault = false) ∧
  (∀ s t : State, step s = .next t → s.fault = false → t.fault = true →
    ∃ code rest, nextEvent s = .start code rest ∧ (s.phase ≠ .idle ∨ code = 6 ∨ code = 7))

/-- The same outcome with SensorMode taken out of the next state. -/
def withoutModes (o : Out) : Out := andThen o fun t => .next { t with reportMode := .active, powerMode := .awake }

/-- R176, R219: SensorMode steers nothing but READ's branch: PowerMode changes no step, and ReportMode changes no step but
one that starts READ. -/
def Obligations.SensorModeSteersOnlyRead : Prop :=
  (∀ (s : State) (p : PowerMode), withoutModes (step { s with powerMode := p }) = withoutModes (step s)) ∧
  (∀ (s : State) (r : ReportMode), (∀ rest, nextEvent s ≠ .start 0 rest) →
    withoutModes (step { s with reportMode := r }) = withoutModes (step s))

/-! ### The command frames -/

/-- An outstanding command the transport accepts, when a frame is awaited: the send is logged, the port cleared, and the
receive phase starts. Every other element is unchanged. For all five commands. -/
def Obligations.AcceptedCommandStartsReceiving : Prop :=
  ∀ (s : State) (c : Command) (rest : List TxAnswer), s.fault = false → s.phase = .send →
    s.txPort = some (cmdFrame s.cfg c) → s.txAnswers = .ok :: rest →
    ¬ (s.expect = .ack ∧ s.cfg.ackExpected.get c = false) →
    exec (cmdInstr c) s = .next { s with
      txPort := none, txAnswers := rest, txLog := s.txLog ++ [(cmdFrame s.cfg c, .ok)],
      phase := .recv, decState := .hunt0, decIdx := 0 }

/-- R163's middle branch: where the parameters expect no acknowledgement, an accepted mode command completes its operation
at once and updates SensorMode. Every other element is unchanged. The clause for RequestRead, met only outside the invariant, is
the model's choice: it reads the ACK_EXPECTED entry R148 calls not used, and updates nothing (log 5). -/
def Obligations.UnacknowledgedCommandCompletes : Prop :=
  ∀ (s : State) (c : Command) (rest : List TxAnswer), s.fault = false → s.phase = .send →
    s.txPort = some (cmdFrame s.cfg c) → s.txAnswers = .ok :: rest → s.expect = .ack →
    s.cfg.ackExpected.get c = false →
    let t := endedOk none { s with
      txPort := none, txAnswers := rest, txLog := s.txLog ++ [(cmdFrame s.cfg c, .ok)] }
    (c = .enterPassive → exec .cmdEnterPassive s = .next { t with reportMode := .passive }) ∧
    (c = .enterActive → exec .cmdEnterActive s = .next { t with reportMode := .active }) ∧
    (c = .requestRead → exec .cmdRequestRead s = .next t) ∧
    (c = .sleep → exec .cmdSleep s = .next { t with powerMode := .asleep }) ∧
    (c = .wake → exec .cmdWake s = .next { t with powerMode := .awake })

/-- R204: an outstanding command the transport fails ends the operation with SendFailed; no receive phase follows. Every
other element is unchanged. -/
def Obligations.FailedSendEndsWithSendFailed : Prop :=
  ∀ (s : State) (c : Command) (rest : List TxAnswer), s.fault = false → s.phase = .send →
    s.txPort = some (cmdFrame s.cfg c) → s.txAnswers = .sendFailed :: rest →
    exec (cmdInstr c) s = .next (endedBy .sendFailed { s with
      txPort := none, txAnswers := rest, txLog := s.txLog ++ [(cmdFrame s.cfg c, .sendFailed)] })

/-- A command frame changes nothing where it is not outstanding in a send phase, and nothing while the transport is silent.
Both are the model's choices: the first after the spec's Encode, which writes no state (log 16), the second because waiting is
a step that changes nothing (log 13). -/
def Obligations.CommandNotAnsweredChangesNothing : Prop :=
  ∀ (s : State) (c : Command), s.fault = false →
    (s.phase ≠ .send ∨ s.txPort ≠ some (cmdFrame s.cfg c) ∨ s.txAnswers = []) → exec (cmdInstr c) s = .next s

/-- R220: a silent transport holds the block for ever: with no draw for the outstanding send or pull and no input to come,
any number of steps leaves the state as it is. That a wait is a step, from the state to itself, is the model's choice
(log 13): 93_implementation_defined.md U7 calls it stuck. -/
def Obligations.SilentTransportHoldsTheBlock : Prop :=
  ∀ (s : State) (k : Nat), s.fault = false → s.inputs = [] →
    (s.phase = .send ∧ s.txAnswers = [] ∨ s.phase = .recv ∧ s.rxStream = []) → run k s = .next s

/-! ### The received frames -/

/-- A complete measurement frame with its right checksum, awaited by READ or REQUEST, delivers exactly its 13 fields
(40_decoder.md R108, 42_operations.md R162). Every other element is unchanged. -/
def Obligations.MeasurementFrameDeliversItsFields : Prop :=
  ∀ (s : State) (f : OutputFrame), s.fault = false → s.expect = .meas → holds s (measFrame f (measSum f)) = true →
    exec (.rxMeas f (measSum f)) s = .next { endedOk (some f) s with outFrame := some f }

/-- A complete acknowledgement of the awaited command completes PASSIVE, ACTIVE, SLEEP or WAKE and updates SensorMode, in the
named row and in the generic one alike. Every other element is unchanged. -/
def Obligations.AwaitedAcknowledgementUpdatesTheMode : Prop :=
  ∀ (s : State), s.fault = false → s.cfg.WF → s.expect = .ack → s.expCmd ≠ .requestRead →
    holds s (ackFrame s.cfg s.expCmd) = true →
    let t := endedOk none s
    (s.expCmd = .enterPassive → exec .rxAckEnterPassive s = .next { t with reportMode := .passive }) ∧
    (s.expCmd = .enterActive → exec .rxAckEnterActive s = .next { t with reportMode := .active }) ∧
    (s.expCmd = .sleep → exec .rxAckSleep s = .next { t with powerMode := .asleep }) ∧
    (s.expCmd = .wake → exec .rxAckWake s = .next { t with powerMode := .awake }) ∧
    exec (.rxAck (s.cfg.ackPayload.get s.expCmd) (ackSum s.cfg (s.cfg.ackPayload.get s.expCmd))) s =
      .next (modeUpdate s.expCmd t)

/-- R202: a complete frame of either shape whose checksum is wrong ends the operation with ChecksumError, whatever was
awaited: the checksum is judged before the shape and the payload (R207). Nothing of it is delivered. -/
def Obligations.WrongChecksumEndsWithChecksumError : Prop :=
  (∀ (s : State) (f : OutputFrame) (chk : Half), s.fault = false → chk ≠ measSum f →
    holds s (measFrame f chk) = true → exec (.rxMeas f chk) s = .next (endedBy .checksumError s)) ∧
  (∀ (s : State) (p : List Byte) (chk : Half), s.fault = false → s.cfg.WF → ackPayloadFits s.cfg p →
    chk ≠ ackSum s.cfg p → holds s (encode s.cfg (.rxAck p chk)) = true →
    exec (.rxAck p chk) s = .next (endedBy .checksumError s))

/-- R205, causes 2 and 3: a complete frame with its right checksum ends the operation with IncorrectResponse where the other
shape was awaited, and where the acknowledgement's payload is not the awaited one. -/
def Obligations.UnexpectedFrameEndsWithIncorrectResponse : Prop :=
  (∀ (s : State) (f : OutputFrame), s.fault = false → s.expect = .ack → holds s (measFrame f (measSum f)) = true →
    exec (.rxMeas f (measSum f)) s = .next (endedBy .incorrectResponse s)) ∧
  (∀ (s : State) (p : List Byte), s.fault = false → s.cfg.WF → ackPayloadFits s.cfg p →
    holds s (encode s.cfg (.rxAck p (ackSum s.cfg p))) = true →
    (s.expect = .meas ∨ p ≠ s.cfg.ackPayload.get s.expCmd) →
    exec (.rxAck p (ackSum s.cfg p)) s = .next (endedBy .incorrectResponse s) ∧
    (p = s.cfg.ackPayload.get .enterPassive → exec .rxAckEnterPassive s = .next (endedBy .incorrectResponse s)) ∧
    (p = s.cfg.ackPayload.get .enterActive → exec .rxAckEnterActive s = .next (endedBy .incorrectResponse s)) ∧
    (p = s.cfg.ackPayload.get .sleep → exec .rxAckSleep s = .next (endedBy .incorrectResponse s)) ∧
    (p = s.cfg.ackPayload.get .wake → exec .rxAckWake s = .next (endedBy .incorrectResponse s)))

/-- A received frame the decoder does not hold as its complete frame joins the stream and changes nothing else. The model's
choice for a frame still on the line (log 15), after 60_exceptions.md R208. -/
def Obligations.FrameStillOnTheLineJoinsTheStream : Prop :=
  ∀ (s : State) (i : Instr), s.fault = false → i.port = .rx → holds s (encode s.cfg i) = false →
    exec i s = .next { s with rxStream := s.rxStream ++ byteDraws (encode s.cfg i) }

/-- An accepted measurement frame is the encoding of the fields it delivered (second half of R113). -/
def Obligations.AcceptedFrameIsTheEncodingOfItsFields : Prop :=
  ∀ (s t : State) (f g : OutputFrame) (chk : Half), s.expect = .meas → holds s (measFrame f chk) = true →
    exec (.rxMeas f chk) s = .next t → t.lastResult = .ok → t.outFrame = some g →
    measEncode g = heldFrame s

/-! ### The decoder, byte by byte -/

/-- R102: the hunt. Every other element is unchanged. -/
def Obligations.HuntFindsTheHeader : Prop :=
  ∀ (s : State) (b : Byte) (rest : List RxAnswer), s.fault = false → s.buf.wf = true → s.phase = .recv →
    s.rxStream = .byte b :: rest →
    (s.decState = .hunt0 → b = 0x42 → step s = .next { s with rxStream := rest, decState := .hunt1 }) ∧
    (s.decState = .hunt0 → b ≠ 0x42 → step s = .next { s with rxStream := rest }) ∧
    (s.decState = .hunt1 → b = 0x4D → ∃ m, step s = .next { s with
        rxStream := rest, decState := .len, decIdx := 2, buf := m } ∧
      m.read 0 = 0x42 ∧ m.read 1 = 0x4D ∧ ∀ a, a ≠ 0 → a ≠ 1 → m.read a = s.buf.read a) ∧
    (s.decState = .hunt1 → b = 0x42 → step s = .next { s with rxStream := rest, decState := .hunt1 }) ∧
    (s.decState = .hunt1 → b ≠ 0x4D → b ≠ 0x42 → step s = .next { s with rxStream := rest, decState := .hunt0 })

/-- R103 and R104: a length byte is stored at `dec_idx`; the second one fixes `dec_len` big-endian, and the operation ends
with IncorrectResponse at once where that is neither MEAS_LEN nor ACK_LEN. Every other element is unchanged. That the step's own
writes to the decoder registers stay when it ends in the error is the model's reading (log 19). -/
def Obligations.LengthBytesAreCheckedAtTheFourth : Prop :=
  ∀ (s : State) (b : Byte) (rest : List RxAnswer), s.fault = false → s.cfg.WF → s.buf.wf = true →
    s.phase = .recv → s.decState = .len → s.rxStream = .byte b :: rest →
    ∃ m : Memory, m.read s.decIdx = b ∧ (∀ a, a ≠ s.decIdx → m.read a = s.buf.read a) ∧
    (s.decIdx = 2 → step s = .next { s with rxStream := rest, buf := m, decIdx := 3 }) ∧
    (s.decIdx = 3 →
      let len := be16 (s.buf.read 2) b
      let t := { s with rxStream := rest, buf := m, decIdx := 4, decLen := len }
      (len = measLen ∨ len = s.cfg.ackLen → step s = .next { t with decState := .body }) ∧
      (len ≠ measLen → len ≠ s.cfg.ackLen → step s = .next (endedBy .incorrectResponse t)))

/-- R105: a body byte before the last is stored at `dec_idx` and no frame is acted on. Every other element is unchanged. -/
def Obligations.BodyByteBeforeTheLastIsOnlyStored : Prop :=
  ∀ (s : State) (b : Byte) (rest : List RxAnswer), s.fault = false → s.buf.wf = true → s.phase = .recv →
    s.decState = .body → s.decIdx < 32 → s.decIdx + 1 < frameLen s → s.rxStream = .byte b :: rest →
    ∃ m : Memory, m.read s.decIdx = b ∧ (∀ a, a ≠ s.decIdx → m.read a = s.buf.read a) ∧
      step s = .next { s with rxStream := rest, buf := m, decIdx := s.decIdx + 1 }

/-- R107 with R203 and R206: a transport error ends the receive phase with its own error kind, in any decoder state. Every
other element is unchanged. -/
def Obligations.TransportErrorsEndTheReceivePhase : Prop :=
  ∀ (s : State) (rest : List RxAnswer), s.fault = false → s.phase = .recv →
    (s.rxStream = .noResponse :: rest → step s = .next (endedBy .noResponse { s with rxStream := rest })) ∧
    (s.rxStream = .readFailed :: rest → step s = .next (endedBy .readFailed { s with rxStream := rest }))

/-! ### Whole receive phases -/

/-- R113, first half: a receive phase that expects a measurement and meets MeasEncode(f) delivers exactly `f`, takes its 32
bytes and no more, and leaves SensorMode and the other agents' queues alone. -/
def Obligations.ReceivePhaseRoundTrip : Prop :=
  ∀ (s : State) (f : OutputFrame) (rest : List RxAnswer), s.cfg.WF → s.expect = .meas →
    Receiving s (byteDraws (measEncode f) ++ rest) → ∃ t, run 32 s = .next t ∧
      t.outFrame = some f ∧ t.lastResult = .ok ∧ t.phase = .idle ∧ t.doneLog = s.doneLog ++ [⟨.ok, some f⟩] ∧
      t.rxStream = rest ∧ t.inputs = s.inputs ∧ t.txAnswers = s.txAnswers ∧ t.txLog = s.txLog ∧ t.txPort = s.txPort ∧
      t.reportMode = s.reportMode ∧ t.powerMode = s.powerMode ∧ t.fault = false ∧ t.cfg = s.cfg

/-- R114: noise with no `42 4D` pair before a frame is discarded, a last byte `42` included. -/
def Obligations.NoiseWithoutAHeaderIsDiscarded : Prop :=
  ∀ (s : State) (p : List Byte) (f : OutputFrame) (rest : List RxAnswer), s.cfg.WF → s.expect = .meas → NoHeader p →
    Receiving s (byteDraws (p ++ measEncode f) ++ rest) → ∃ t, run (p.length + 32) s = .next t ∧
      t.outFrame = some f ∧ t.lastResult = .ok ∧ t.phase = .idle ∧ t.rxStream = rest

/-- R112: a measurement frame with exactly one bit of bytes 4 to 31 (payload or checksum) changed ends with ChecksumError and
delivers nothing. -/
def Obligations.SingleBitErrorsAreDetected : Prop :=
  ∀ (s : State) (f : OutputFrame) (i k : Nat) (rest : List RxAnswer), s.cfg.WF → 4 ≤ i → i < 32 → k < 8 →
    Receiving s (byteDraws (flipBit (measEncode f) i k) ++ rest) → ∃ t, run 32 s = .next t ∧
      t.lastResult = .err .checksumError ∧ t.phase = .idle ∧ t.outFrame = s.outFrame ∧
      t.doneLog = s.doneLog ++ [⟨.err .checksumError, none⟩] ∧ t.rxStream = rest

/-- A header followed by a length no shape has ends the operation after its fourth byte, whatever follows (R75, R104): the
rest of the stream is not pulled. -/
def Obligations.IllegalLengthEndsAfterFourBytes : Prop :=
  ∀ (s : State) (b2 b3 : Byte) (rest : List RxAnswer), s.cfg.WF → be16 b2 b3 ≠ measLen → be16 b2 b3 ≠ s.cfg.ackLen →
    Receiving s (byteDraws [0x42, 0x4D, b2, b3] ++ rest) → ∃ t, run 4 s = .next t ∧
      t.lastResult = .err .incorrectResponse ∧ t.phase = .idle ∧ t.rxStream = rest ∧ t.outFrame = s.outFrame ∧
      t.reportMode = s.reportMode ∧ t.powerMode = s.powerMode

/-! ### Whole operations -/

/-- The start code of a mode operation, and the modes it leaves (R172 to R175). -/
def modeOperationEnds (op : HostOp) (s t : State) : Prop :=
  match op with
  | .passive => t.reportMode = .passive ∧ t.powerMode = s.powerMode
  | .active => t.reportMode = .active ∧ t.powerMode = s.powerMode
  | .sleep => t.reportMode = s.reportMode ∧ t.powerMode = .asleep
  | .wake => t.reportMode = s.reportMode ∧ t.powerMode = .awake
  | .read | .request => False

/-- `t` is `s` with a mode operation run to its successful end: one send, one `done`, SensorMode updated. -/
def ModeOperationDone (op : HostOp) (s t : State) : Prop :=
  modeOperationEnds op s t ∧ t.lastResult = .ok ∧ t.phase = .idle ∧ t.doneLog = s.doneLog ++ [⟨.ok, none⟩] ∧
  t.outFrame = s.outFrame ∧ t.txLog = s.txLog ++ [(cmdFrame s.cfg op.command, .ok)]

/-- PASSIVE, ACTIVE, SLEEP and WAKE from start to done, from any SensorMode (also the one they set): with a transport that
accepts the send and delivers the acknowledgement, the command is sent once, the operation succeeds, and SensorMode is
updated; the transport's answer arrives after the send, or is held already (log 17). -/
def Obligations.ModeOperationsRunToTheirEnd : Prop :=
  ∀ (s : State) (op : HostOp) (inputs : List Input) (rest : List RxAnswer),
    s.cfg.WF → s.buf.wf = true → op ≠ .read → op ≠ .request → s.cfg.ackExpected.get op.command = true → s.fault = false →
    s.phase = .idle → s.rxStream = byteDraws (ackFrame s.cfg op.command) ++ rest →
    (s.inputs = .start op.code :: .tx .ok :: inputs → s.txAnswers = [] →
      ∃ t, run (3 + (4 + s.cfg.ackLen.toNat)) s = .next t ∧ ModeOperationDone op s t ∧ t.inputs = inputs ∧
        t.txAnswers = [] ∧ t.rxStream = rest) ∧
    (∀ answers, s.inputs = .start op.code :: inputs → s.txAnswers = .ok :: answers →
      ∃ t, run (2 + (4 + s.cfg.ackLen.toNat)) s = .next t ∧ ModeOperationDone op s t ∧ t.inputs = inputs ∧
        t.txAnswers = answers ∧ t.rxStream = rest)

/-- `t` is `s` with a measurement operation run to its successful end: the frame delivered, one `done`, these sends logged,
SensorMode unchanged. -/
def MeasurementDone (f : OutputFrame) (sends : List (List Byte × TxAnswer)) (s t : State) : Prop :=
  t.outFrame = some f ∧ t.lastResult = .ok ∧ t.phase = .idle ∧ t.reportMode = s.reportMode ∧ t.powerMode = s.powerMode ∧
  t.txLog = s.txLog ++ sends ∧ t.doneLog = s.doneLog ++ [⟨.ok, some f⟩]

/-- READ and REQUEST from start to done: with the next frame on the stream a measurement, READ in Active mode returns it
after sending nothing, and READ in Passive mode and REQUEST return it after sending RequestRead once; the transport's answer
arrives after the send, or is held already (log 17). SensorMode is unchanged. -/
def Obligations.MeasurementOperationsRunToTheirEnd : Prop :=
  ∀ (s : State) (op : HostOp) (f : OutputFrame) (inputs : List Input) (rest : List RxAnswer),
    s.cfg.WF → s.buf.wf = true → s.fault = false → s.phase = .idle → s.rxStream = byteDraws (measEncode f) ++ rest →
    (op = .read ∧ s.reportMode = .active → s.inputs = .start op.code :: inputs →
      ∃ t, run (1 + 32) s = .next t ∧ MeasurementDone f [] s t ∧ t.inputs = inputs ∧ t.txAnswers = s.txAnswers ∧
        t.rxStream = rest) ∧
    (op = .request ∨ op = .read ∧ s.reportMode = .passive →
      (s.inputs = .start op.code :: .tx .ok :: inputs → s.txAnswers = [] →
        ∃ t, run (3 + 32) s = .next t ∧ MeasurementDone f [(cmdFrame s.cfg .requestRead, .ok)] s t ∧ t.inputs = inputs ∧
          t.txAnswers = [] ∧ t.rxStream = rest) ∧
      (∀ answers, s.inputs = .start op.code :: inputs → s.txAnswers = .ok :: answers →
        ∃ t, run (2 + 32) s = .next t ∧ MeasurementDone f [(cmdFrame s.cfg .requestRead, .ok)] s t ∧ t.inputs = inputs ∧
          t.txAnswers = answers ∧ t.rxStream = rest))

/-! ### Laws of every step -/

/-- The invariant holds after reset under every choice of the parameters that meets R110. -/
def Obligations.ResetMeetsTheInvariant : Prop :=
  (∀ cfg : Config, cfg.WF → Inv (State.resetWith cfg)) ∧ Inv State.reset

/-- Every step keeps the invariant. -/
def Obligations.StepKeepsTheInvariant : Prop := ∀ s t : State, Inv s → step s = .next t → Inv t

/-- From a state that meets the invariant with no fault mark, every step has a next state: the buffer never overflows (R104)
and nothing is refused. That a waiting state steps to itself is the model's choice (log 13): 93_implementation_defined.md U7
calls it stuck. -/
def Obligations.InvariantStepAlwaysHasANextState : Prop :=
  ∀ s : State, Inv s → s.fault = false → ∃ t, step s = .next t

/-- R24 and R25: ReportMode changes only at the successful completion of PASSIVE (to Passive) or ACTIVE (to Active), PowerMode
only at that of SLEEP (to Asleep) or WAKE (to Awake). Reset apart. -/
def Obligations.SensorModeChangesOnlyOnSuccess : Prop :=
  ∀ s t : State, Inv s → NoReset s → step s = .next t →
    (t.reportMode ≠ s.reportMode →
      (s.op = .passive ∧ t.reportMode = .passive ∨ s.op = .active ∧ t.reportMode = .active) ∧
      s.phase ≠ .idle ∧ t.phase = .idle ∧ t.lastResult = .ok ∧ t.doneLog = s.doneLog ++ [⟨.ok, none⟩]) ∧
    (t.powerMode ≠ s.powerMode →
      (s.op = .sleep ∧ t.powerMode = .asleep ∨ s.op = .wake ∧ t.powerMode = .awake) ∧
      s.phase ≠ .idle ∧ t.phase = .idle ∧ t.lastResult = .ok ∧ t.doneLog = s.doneLog ++ [⟨.ok, none⟩])

/-- What R201 keeps and records, over every step: a step that ends an operation with an error leaves SensorMode, `out_frame`
and `out_valid`, the operation and what it expects, the fault mark and the parameters as they were, records the code, goes
idle and has no send outstanding. A failed send takes its answer and is logged; any other error takes the one answer to the
pull it meets, and no other: the bytes not pulled stay. Of the decoder's own registers and the buffer, which hold the dropped
partial frame, it says nothing: that they keep what the step has written is the model's reading (log 19). -/
def Obligations.FailedOperationWritesOnlyItsResult : Prop :=
  ∀ (s t : State) (e : ErrorKind), Inv s → step s = .next t → t.doneLog = s.doneLog ++ [⟨.err e, none⟩] →
    t.lastResult = .err e ∧ t.phase = .idle ∧ t.reportMode = s.reportMode ∧ t.powerMode = s.powerMode ∧
    t.outFrame = s.outFrame ∧ t.outValid = s.outValid ∧ t.op = s.op ∧ t.expect = s.expect ∧ t.expCmd = s.expCmd ∧
    t.fault = s.fault ∧ t.cfg = s.cfg ∧ t.txPort = none ∧ t.inputs = s.inputs ∧
    ((s.phase = .send ∧ e = .sendFailed ∧ s.txAnswers = .sendFailed :: t.txAnswers ∧
      t.txLog = s.txLog ++ [(cmdFrame s.cfg s.op.command, .sendFailed)] ∧ t.rxStream = s.rxStream) ∨
     (s.phase = .recv ∧ e ≠ .sendFailed ∧ t.txAnswers = s.txAnswers ∧ t.txLog = s.txLog ∧
      ∃ a, s.rxStream = a :: t.rxStream))

/-- `out_frame` and `out_valid` are written only by the successful completion of READ or REQUEST, with the frame it returns
(part of R30). Reset apart. -/
def Obligations.OutFrameChangesOnlyOnSuccess : Prop :=
  ∀ s t : State, Inv s → NoReset s → step s = .next t → t.outFrame ≠ s.outFrame →
    (s.op = .read ∨ s.op = .request) ∧ s.phase = .recv ∧ t.phase = .idle ∧ t.lastResult = .ok ∧
    ∃ f, t.outFrame = some f ∧ t.doneLog = s.doneLog ++ [⟨.ok, some f⟩]

/-- R81: a step issues at most one `done`, exactly when it ends the operation in progress; its code is the new `last_result`,
and it carries a frame exactly on OK of READ or REQUEST. Reset apart. -/
def Obligations.OneDoneForEachOperation : Prop :=
  ∀ s t : State, Inv s → NoReset s → step s = .next t →
    (t.doneLog = s.doneLog ∧ t.lastResult = s.lastResult ∧ (s.phase = .idle ∨ t.phase ≠ .idle)) ∨
    (∃ d, t.doneLog = s.doneLog ++ [d] ∧ d.code = t.lastResult ∧ d.code ≠ .none ∧ s.phase ≠ .idle ∧ t.phase = .idle ∧
      (d.frame.isSome ↔ d.code = .ok ∧ (s.op = .read ∨ s.op = .request)))

/-- R22: the order of phases within an operation: from IDLE a start leads to SEND or RECV, SEND leads to RECV or IDLE, RECV
leads only to IDLE; RECV never leads back to SEND. `op` is written only by an accepted start (R21). Reset apart. -/
def Obligations.PhasesFollowTheirOrder : Prop :=
  ∀ s t : State, NoReset s → step s = .next t →
    (t.phase ≠ s.phase →
      (s.phase = .idle ∧ (∃ code rest, nextEvent s = .start code rest)) ∨
      (s.phase = .send ∧ (t.phase = .recv ∨ t.phase = .idle)) ∨ (s.phase = .recv ∧ t.phase = .idle)) ∧
    (t.op ≠ s.op → s.phase = .idle ∧ t.phase ≠ .idle)

/-- Sends (R177): a step that leaves SEND logs exactly one answered send, the frame of the command of the operation in progress
with the transport's draw; no other step logs one; a send is handed over only by a step from IDLE. Reset apart. -/
def Obligations.OneSendForEachSendPhase : Prop :=
  ∀ s t : State, Inv s → NoReset s → step s = .next t →
    (s.phase = .send → t.phase ≠ .send → ∃ a rest, s.txAnswers = a :: rest ∧ t.txAnswers = rest ∧
      t.txLog = s.txLog ++ [(cmdFrame s.cfg s.op.command, a)]) ∧
    (¬ (s.phase = .send ∧ t.phase ≠ .send) → t.txLog = s.txLog) ∧
    (t.phase = .send → s.phase = .send ∨ s.phase = .idle ∧ t.txPort = some (cmdFrame s.cfg t.op.command))

/-- R59, R61: a step pulls at most the first answer of the stream, only in RECV; otherwise the stream is unchanged or grows at
its end by an answer that arrived, or a reset cuts the pull and drops the error owed to it (R232). No byte is drained, skipped
or delivered twice. -/
def Obligations.StreamIsPulledInOrder : Prop :=
  ∀ s t : State, Inv s → step s = .next t →
    t.rxStream = s.rxStream ∨ (s.phase = .recv ∧ ∃ a, s.rxStream = a :: t.rxStream ∧ t.inputs = s.inputs) ∨
    (s.phase = .recv ∧ ∃ a, s.rxStream = a :: t.rxStream ∧ (∀ b, a ≠ .byte b) ∧ s.inputs = .reset :: t.inputs) ∨
    (∃ a, t.rxStream = s.rxStream ++ [a] ∧ s.inputs = .rx a :: t.inputs)

/-- R34, R64: nothing the host does or the block receives changes the parameters, by any step or instruction. -/
def Obligations.ParametersNeverChange : Prop :=
  (∀ s t : State, step s = .next t → t.cfg = s.cfg) ∧ (∀ (i : Instr) (s t : State), exec i s = .next t → t.cfg = s.cfg)

/-- Two states that differ in the buffer only, and there only at indexes of `dec_idx` and above. -/
def SameHeldBytes (s t : State) : Prop :=
  t = { s with buf := t.buf } ∧ ∀ a, a < s.decIdx → t.buf.read a = s.buf.read a

/-- R50: a byte of the buffer at index `dec_idx` or above is never read: two states of the invariant that differ only in such
bytes step to states that differ only in such bytes. What the buffer holds after reset therefore decides nothing (log 10). -/
def Obligations.StaleBufferBytesAreNeverRead : Prop :=
  ∀ s s' t t' : State, Inv s → Inv s' → SameHeldBytes s s' → step s = .next t → step s' = .next t' → SameHeldBytes t t'

/-- The state with the registers no rule reads in its phase set to fixed values: `op`, `expect` and `expCmd` in IDLE, `expCmd`
while a measurement is expected, the decoder registers outside RECV, `dec_len` before BODY (R21, R26, R27, R28). -/
def liveOnly (s : State) : State :=
  { s with
    op := if s.phase = .idle then .read else s.op
    expect := if s.phase = .idle then .meas else s.expect
    expCmd := if s.phase = .idle ∨ s.expect = .meas then .requestRead else s.expCmd
    decState := if s.phase = .recv then s.decState else .hunt0
    decIdx := if s.phase = .recv then s.decIdx else 0
    decLen := if s.phase = .recv ∧ s.decState = .body then s.decLen else 0 }

/-- R36: "no rule reads such an element before writing it": two states of the invariant that differ only in registers not live
in their phase step to states that differ only in such registers. The values the model names for them at reset therefore
decide nothing (log 7, log 8, log 9). -/
def Obligations.DeadRegistersAreNeverRead : Prop :=
  ∀ s s' t t' : State, Inv s → Inv s' → liveOnly s = liveOnly s' → step s = .next t → step s' = .next t' →
    liveOnly t = liveOnly t'

/-- The bytes of the buffer an instruction leaves alone: all of them, for every instruction: a received frame is stored byte by
byte as it arrives (R103, R105), and a reset is no instruction. -/
def Obligations.NoInstructionStoresToTheBuffer : Prop :=
  ∀ (i : Instr) (s t : State), exec i s = .next t → ∀ a, t.buf.read a = s.buf.read a

/-! ### The host's views -/

/-- R33: the STATUS bits, LAST_RESULT by the result codes of 30_encoding.md R85, and the 13 read-only words of `out_frame`;
R30: a read of them while `out_valid` is 0 is refused. That an index of 13 or above is refused is the model's choice (log
27). -/
def Obligations.StatusAndOutFrameViews : Prop :=
  (∀ s : State,
    (s.status.getLsbD 0 = true ↔ s.reportMode = .passive) ∧ (s.status.getLsbD 1 = true ↔ s.powerMode = .asleep) ∧
    (s.status.getLsbD 2 = true ↔ s.phase ≠ .idle) ∧ (s.status.getLsbD 3 = true ↔ s.outFrame ≠ none) ∧
    s.status.extractLsb' 4 3 = s.lastResult.code ∧ (s.status.getLsbD 7 = true ↔ s.fault = true)) ∧
  (∀ s : State,
    (s.lastResult = .ok → s.status.extractLsb' 4 3 = 0#3) ∧
    (s.lastResult = .err .checksumError → s.status.extractLsb' 4 3 = 1#3) ∧
    (s.lastResult = .err .readFailed → s.status.extractLsb' 4 3 = 2#3) ∧
    (s.lastResult = .err .sendFailed → s.status.extractLsb' 4 3 = 3#3) ∧
    (s.lastResult = .err .incorrectResponse → s.status.extractLsb' 4 3 = 4#3) ∧
    (s.lastResult = .err .noResponse → s.status.extractLsb' 4 3 = 5#3) ∧
    (s.lastResult = .none → s.status.extractLsb' 4 3 = 7#3)) ∧
  (∀ (s : State) (f : OutputFrame) (i : Nat), s.outFrame = some f →
    (∀ v, f.fields[i]? = some v → readOutFrame s i = .next v) ∧ (i < 13 → ∃ v, readOutFrame s i = .next v) ∧
    (13 ≤ i → readOutFrame s i = .refused .noSuchField)) ∧
  (∀ (s : State) (i : Nat), s.outFrame = none → readOutFrame s i = .refused .outFrameInvalid)
end

