-- ==== Sys2Proof/Laws/Bytes.lean ====
section
/-! SUPPORT. Byte order, sums and frame layouts. -/

namespace Sys2Proof

@[simp] theorem be16_hi8_lo8 (v : Half) : be16 (hi8 v) (lo8 v) = v := by
  apply BitVec.eq_of_getLsbD_eq
  intro i hi
  by_cases h : i < 8
  · simp [be16, hi8, lo8, h, hi]
  · simp [be16, hi8, lo8, h, hi, show i - 8 < 8 by omega, show 8 + (i - 8) = i by omega]

@[simp] theorem hi8_be16 (a b : Byte) : hi8 (be16 a b) = a := by
  apply BitVec.eq_of_getLsbD_eq
  intro i hi
  simp [be16, hi8, hi, show 8 + i < 16 by omega]

@[simp] theorem lo8_be16 (a b : Byte) : lo8 (be16 a b) = b := by
  apply BitVec.eq_of_getLsbD_eq
  intro i hi
  simp [be16, lo8, hi, show i < 16 by omega]

@[simp] theorem length_beBytes16 (v : Half) : (beBytes16 v).length = 2 := rfl

@[simp] theorem beBytes16_be16 (a b : Byte) : beBytes16 (be16 a b) = [a, b] := by simp [beBytes16]

@[simp] theorem plainSum_nil : plainSum [] = 0 := rfl

@[simp] theorem plainSum_cons (b : Byte) (bs : List Byte) : plainSum (b :: bs) = b.toNat + plainSum bs := by
  simp [plainSum]

@[simp] theorem plainSum_append (xs ys : List Byte) : plainSum (xs ++ ys) = plainSum xs + plainSum ys := by
  simp [plainSum]

/-- A sum of bytes is at most 255 a byte. -/
theorem plainSum_le (bs : List Byte) : plainSum bs ≤ 255 * bs.length := by
  induction bs with
  | nil => simp
  | cons b bs ih => simp only [plainSum_cons, List.length_cons]; omega

theorem toNat_sum16 (bs : List Byte) : (sum16 bs).toNat = plainSum bs % 65536 := by simp [sum16]

/-- 257 bytes or fewer never wrap. -/
theorem toNat_sum16_of_length {bs : List Byte} (h : bs.length ≤ 257) : (sum16 bs).toNat = plainSum bs := by
  have := plainSum_le bs
  rw [toNat_sum16]
  omega

@[simp] theorem length_sealFrame (bs : List Byte) : (sealFrame bs).length = bs.length + 2 := by simp [sealFrame]

@[simp] theorem length_rxHead (len : Half) (p : List Byte) : (rxHead len p).length = 4 + p.length := by
  simp [rxHead]; omega

theorem length_flatMap_beBytes16 (vs : List Half) : (vs.flatMap beBytes16).length = 2 * vs.length := by
  induction vs with
  | nil => rfl
  | cons v vs ih => simp only [List.flatMap_cons, List.length_append, ih, length_beBytes16, List.length_cons]; omega

@[simp] theorem length_fieldBytes (f : OutputFrame) : (fieldBytes f).length = 26 := by
  simp [fieldBytes, f.length_eq]

@[simp] theorem length_cmdFrame (cfg : Config) (c : Command) : (cmdFrame cfg c).length = 7 := by
  simp [cmdFrame, cmdHead]

@[simp] theorem length_measFrame (f : OutputFrame) (chk : Half) : (measFrame f chk).length = 32 := by
  simp [measFrame]

@[simp] theorem length_measEncode (f : OutputFrame) : (measEncode f).length = 32 := by simp [measEncode]

/-- The right frame of `f` is the frame with its right checksum. -/
theorem measFrame_measSum (f : OutputFrame) :
    measFrame f (sum16 (rxHead measLen (fieldBytes f))) = measEncode f := rfl

/-- The acknowledgement of an acknowledged command has `4 + ACK_LEN` bytes (R73, R110). -/
theorem length_ackFrame {cfg : Config} (h : cfg.WF) {c : Command} (hc : c ∈ Command.acked) :
    (ackFrame cfg c).length = 4 + cfg.ackLen.toNat := by
  have := h.2.2.2 c hc
  have := h.1
  simp [ackFrame]
  omega

/-- Byte `2i` and byte `2i+1` of a field list's bytes are the field's. -/
theorem getD_flatMap_beBytes16 (vs : List Half) (i : Nat) (h : i < vs.length) :
    (vs.flatMap beBytes16).getD (2 * i) 0 = hi8 vs[i] ∧ (vs.flatMap beBytes16).getD (2 * i + 1) 0 = lo8 vs[i] := by
  induction vs generalizing i with
  | nil => simp at h
  | cons v vs ih =>
    cases i with
    | zero => simp [beBytes16]
    | succ i =>
      have := ih i (by simpa using h)
      simpa [beBytes16, Nat.mul_add] using this

/-- The fields of a field list's bytes are the fields. -/
@[simp] theorem fieldsOf_fieldBytes (f : OutputFrame) : fieldsOf (fieldBytes f) = f := by
  obtain ⟨vs, hv⟩ := f
  simp only [fieldsOf, fieldBytes, OutputFrame.mk.injEq]
  apply List.ext_getElem (by simp [hv])
  intro i h _
  simp only [List.length_map, List.length_range] at h
  obtain ⟨h1, h2⟩ := getD_flatMap_beBytes16 vs i (by omega)
  simp only [List.getElem_map, List.getElem_range, h1, h2, be16_hi8_lo8]

end Sys2Proof
end

