-- ==== Sys2Proof/Laws/Memory.lean ====
section
/-! SUPPORT. The buffer: reading after writing, and the canonical form kept by every operation. -/

namespace Sys2Proof.Machine

@[simp] theorem read_nil (a : Nat) : Memory.read [] a = Memory.fill := rfl

theorem wfFrom_cons {lo k : Nat} {v : Byte} {m : Memory} :
    Memory.wfFrom lo ((k, v) :: m) = true ↔
      (lo ≤ k ∧ k < bufSize ∧ v ≠ Memory.fill) ∧ Memory.wfFrom (k + 1) m = true := by
  simp [Memory.wfFrom, and_assoc]

/-- The form from a higher index on is the form from a lower one on. -/
theorem wfFrom_mono {lo lo' : Nat} {m : Memory} (h : lo ≤ lo') (hm : Memory.wfFrom lo' m = true) :
    Memory.wfFrom lo m = true := by
  cases m with
  | nil => rfl
  | cons c m =>
    obtain ⟨k, v⟩ := c
    rw [wfFrom_cons] at hm ⊢
    exact ⟨⟨le_trans h hm.1.1, hm.1.2⟩, hm.2⟩

/-- Below its first index a canonical memory lists nothing. -/
theorem read_below {lo a : Nat} {m : Memory} (hm : Memory.wfFrom lo m = true) (ha : a < lo) :
    m.read a = Memory.fill := by
  induction m generalizing lo with
  | nil => rfl
  | cons c m ih =>
    obtain ⟨k, v⟩ := c
    rw [wfFrom_cons] at hm
    simp only [Memory.read, if_neg (show a ≠ k by omega)]
    exact ih hm.2 (by omega)

theorem wfFrom_write {lo a : Nat} {b : Byte} {m : Memory} (hm : Memory.wfFrom lo m = true) (hlo : lo ≤ a)
    (ha : a < bufSize) : Memory.wfFrom lo (m.write a b) = true := by
  induction m generalizing lo with
  | nil =>
    unfold Memory.write
    split
    · rfl
    · exact wfFrom_cons.2 ⟨⟨hlo, ha, ‹_›⟩, rfl⟩
  | cons c m ih =>
    obtain ⟨k, v⟩ := c
    have h := wfFrom_cons.1 hm
    unfold Memory.write
    split
    · split
      · exact hm
      · exact wfFrom_cons.2 ⟨⟨hlo, ha, ‹_›⟩, wfFrom_cons.2 ⟨⟨by omega, h.1.2⟩, h.2⟩⟩
    · split
      · subst a
        split
        · exact wfFrom_mono (by omega) h.2
        · exact wfFrom_cons.2 ⟨⟨hlo, ha, ‹_›⟩, h.2⟩
      · exact wfFrom_cons.2 ⟨h.1, ih h.2 (by omega)⟩

/-- A write inside the buffer keeps the canonical form. -/
theorem write_keeps_wf {a : Nat} {b : Byte} {m : Memory} (hm : m.wf = true) (ha : a < bufSize) :
    (m.write a b).wf = true := wfFrom_write hm (Nat.zero_le a) ha

theorem read_write_of_wfFrom {lo a a' : Nat} {b : Byte} {m : Memory} (hm : Memory.wfFrom lo m = true) :
    (m.write a b).read a' = if a' = a then b else m.read a' := by
  induction m generalizing lo with
  | nil =>
    by_cases hb : b = Memory.fill <;> simp [Memory.write, Memory.read, hb]
  | cons c m ih =>
    obtain ⟨k, v⟩ := c
    have h := wfFrom_cons.1 hm
    unfold Memory.write
    split
    · have below : a' = a → Memory.read ((k, v) :: m) a' = Memory.fill := fun e =>
        read_below (wfFrom_cons.2 ⟨⟨Nat.le_refl k, h.1.2⟩, h.2⟩) (by omega)
      split
      · by_cases e : a' = a
        · rw [below e, if_pos e, ‹b = _›]
        · rw [if_neg e]
      · rfl
    · split
      · subst a
        split
        · by_cases e : a' = k
          · rw [if_pos e, ‹b = _›]
            exact read_below h.2 (by omega)
          · simp [Memory.read, e]
        · by_cases e : a' = k <;> simp [Memory.read, e]
      · by_cases e : a' = k
        · simp [Memory.read, e, show k ≠ a by omega]
        · simp [Memory.read, e, ih h.2]

/-- Reading after a write: the written byte at its index, every other byte as before. -/
theorem read_write {a a' : Nat} {b : Byte} {m : Memory} (hm : m.wf = true) :
    (m.write a b).read a' = if a' = a then b else m.read a' := read_write_of_wfFrom hm

theorem read_write_same {a : Nat} {b : Byte} {m : Memory} (hm : m.wf = true) : (m.write a b).read a = b := by
  simp [read_write hm]

theorem read_write_other {a a' : Nat} {b : Byte} {m : Memory} (hm : m.wf = true) (h : a' ≠ a) :
    (m.write a b).read a' = m.read a' := by simp [read_write hm, h]

@[simp] theorem length_readBytes (m : Memory) (a n : Nat) : (m.readBytes a n).length = n := by simp [Memory.readBytes]

theorem getElem?_readBytes (m : Memory) (a n i : Nat) :
    (m.readBytes a n)[i]? = if i < n then some (m.read (a + i)) else none := by
  by_cases h : i < n <;> simp [Memory.readBytes, h]

/-- A longer read is the shorter one and the bytes after it. -/
theorem readBytes_add (m : Memory) (a n k : Nat) :
    m.readBytes a (n + k) = m.readBytes a n ++ m.readBytes (a + n) k := by
  simp [Memory.readBytes, List.range_add, Nat.add_assoc]

theorem readBytes_succ (m : Memory) (a n : Nat) : m.readBytes a (n + 1) = m.readBytes a n ++ [m.read (a + n)] := by
  simp [Memory.readBytes, List.range_succ]

/-- Memories that read alike on a range give the same bytes there. -/
theorem readBytes_congr {m m' : Memory} {a n : Nat} (h : ∀ i, i < n → m.read (a + i) = m'.read (a + i)) :
    m.readBytes a n = m'.readBytes a n :=
  List.map_congr_left fun i hi => h i (List.mem_range.1 hi)

/-- A write outside a range leaves the bytes of the range alone. -/
theorem readBytes_write {m : Memory} {a n k : Nat} {b : Byte} (hm : m.wf = true) (h : k < a ∨ a + n ≤ k) :
    (m.write k b).readBytes a n = m.readBytes a n :=
  readBytes_congr fun i hi => read_write_other hm (by omega)

/-- A write outside two bytes leaves their 16-bit value alone. -/
theorem read16_write {m : Memory} {a k : Nat} {b : Byte} (hm : m.wf = true) (h : k < a ∨ a + 1 < k) :
    (m.write k b).read16 a = m.read16 a := by
  unfold Memory.read16
  rw [read_write_other hm (by omega), read_write_other hm (by omega)]

end Sys2Proof.Machine
end

