-- ==== Sys2Proof/Laws/State.lean ====
section
/-! SUPPORT. The fields of a state after each named update: one lemma per field per update. -/

namespace Sys2Proof.Machine

/-! ### raise (60_exceptions.md R201) -/

@[simp] theorem raise_reportMode (e : ErrorKind) (s : State) : (raise e s).reportMode = s.reportMode := rfl
@[simp] theorem raise_powerMode (e : ErrorKind) (s : State) : (raise e s).powerMode = s.powerMode := rfl
@[simp] theorem raise_phase (e : ErrorKind) (s : State) : (raise e s).phase = .idle := rfl
@[simp] theorem raise_op (e : ErrorKind) (s : State) : (raise e s).op = s.op := rfl
@[simp] theorem raise_expect (e : ErrorKind) (s : State) : (raise e s).expect = s.expect := rfl
@[simp] theorem raise_expCmd (e : ErrorKind) (s : State) : (raise e s).expCmd = s.expCmd := rfl
@[simp] theorem raise_decState (e : ErrorKind) (s : State) : (raise e s).decState = s.decState := rfl
@[simp] theorem raise_decIdx (e : ErrorKind) (s : State) : (raise e s).decIdx = s.decIdx := rfl
@[simp] theorem raise_decLen (e : ErrorKind) (s : State) : (raise e s).decLen = s.decLen := rfl
@[simp] theorem raise_buf (e : ErrorKind) (s : State) : (raise e s).buf = s.buf := rfl
@[simp] theorem raise_outFrame (e : ErrorKind) (s : State) : (raise e s).outFrame = s.outFrame := rfl
@[simp] theorem raise_lastResult (e : ErrorKind) (s : State) : (raise e s).lastResult = .err e := rfl
@[simp] theorem raise_fault (e : ErrorKind) (s : State) : (raise e s).fault = s.fault := rfl
@[simp] theorem raise_cfg (e : ErrorKind) (s : State) : (raise e s).cfg = s.cfg := rfl
@[simp] theorem raise_inputs (e : ErrorKind) (s : State) : (raise e s).inputs = s.inputs := rfl
@[simp] theorem raise_txAnswers (e : ErrorKind) (s : State) : (raise e s).txAnswers = s.txAnswers := rfl
@[simp] theorem raise_rxStream (e : ErrorKind) (s : State) : (raise e s).rxStream = s.rxStream := rfl
@[simp] theorem raise_txPort (e : ErrorKind) (s : State) : (raise e s).txPort = s.txPort := rfl
@[simp] theorem raise_txLog (e : ErrorKind) (s : State) : (raise e s).txLog = s.txLog := rfl
@[simp] theorem raise_doneLog (e : ErrorKind) (s : State) : (raise e s).doneLog = s.doneLog ++ [⟨.err e, none⟩] := rfl

/-! ### complete (42_operations.md R161) -/

@[simp] theorem complete_reportMode (r : Option OutputFrame) (s : State) : (complete r s).reportMode = s.reportMode := rfl
@[simp] theorem complete_powerMode (r : Option OutputFrame) (s : State) : (complete r s).powerMode = s.powerMode := rfl
@[simp] theorem complete_phase (r : Option OutputFrame) (s : State) : (complete r s).phase = .idle := rfl
@[simp] theorem complete_op (r : Option OutputFrame) (s : State) : (complete r s).op = s.op := rfl
@[simp] theorem complete_expect (r : Option OutputFrame) (s : State) : (complete r s).expect = s.expect := rfl
@[simp] theorem complete_expCmd (r : Option OutputFrame) (s : State) : (complete r s).expCmd = s.expCmd := rfl
@[simp] theorem complete_decState (r : Option OutputFrame) (s : State) : (complete r s).decState = s.decState := rfl
@[simp] theorem complete_decIdx (r : Option OutputFrame) (s : State) : (complete r s).decIdx = s.decIdx := rfl
@[simp] theorem complete_decLen (r : Option OutputFrame) (s : State) : (complete r s).decLen = s.decLen := rfl
@[simp] theorem complete_buf (r : Option OutputFrame) (s : State) : (complete r s).buf = s.buf := rfl
@[simp] theorem complete_outFrame (r : Option OutputFrame) (s : State) : (complete r s).outFrame = s.outFrame := rfl
@[simp] theorem complete_lastResult (r : Option OutputFrame) (s : State) : (complete r s).lastResult = .ok := rfl
@[simp] theorem complete_fault (r : Option OutputFrame) (s : State) : (complete r s).fault = s.fault := rfl
@[simp] theorem complete_cfg (r : Option OutputFrame) (s : State) : (complete r s).cfg = s.cfg := rfl
@[simp] theorem complete_inputs (r : Option OutputFrame) (s : State) : (complete r s).inputs = s.inputs := rfl
@[simp] theorem complete_txAnswers (r : Option OutputFrame) (s : State) : (complete r s).txAnswers = s.txAnswers := rfl
@[simp] theorem complete_rxStream (r : Option OutputFrame) (s : State) : (complete r s).rxStream = s.rxStream := rfl
@[simp] theorem complete_txPort (r : Option OutputFrame) (s : State) : (complete r s).txPort = s.txPort := rfl
@[simp] theorem complete_txLog (r : Option OutputFrame) (s : State) : (complete r s).txLog = s.txLog := rfl
@[simp] theorem complete_doneLog (r : Option OutputFrame) (s : State) : (complete r s).doneLog = s.doneLog ++ [⟨.ok, r⟩] := rfl

/-! ### RecvStart (40_decoder.md R101) -/

@[simp] theorem recvStart_reportMode (s : State) : (recvStart s).reportMode = s.reportMode := rfl
@[simp] theorem recvStart_powerMode (s : State) : (recvStart s).powerMode = s.powerMode := rfl
@[simp] theorem recvStart_phase (s : State) : (recvStart s).phase = .recv := rfl
@[simp] theorem recvStart_op (s : State) : (recvStart s).op = s.op := rfl
@[simp] theorem recvStart_expect (s : State) : (recvStart s).expect = s.expect := rfl
@[simp] theorem recvStart_expCmd (s : State) : (recvStart s).expCmd = s.expCmd := rfl
@[simp] theorem recvStart_decState (s : State) : (recvStart s).decState = .hunt0 := rfl
@[simp] theorem recvStart_decIdx (s : State) : (recvStart s).decIdx = 0 := rfl
@[simp] theorem recvStart_decLen (s : State) : (recvStart s).decLen = s.decLen := rfl
@[simp] theorem recvStart_buf (s : State) : (recvStart s).buf = s.buf := rfl
@[simp] theorem recvStart_outFrame (s : State) : (recvStart s).outFrame = s.outFrame := rfl
@[simp] theorem recvStart_lastResult (s : State) : (recvStart s).lastResult = s.lastResult := rfl
@[simp] theorem recvStart_fault (s : State) : (recvStart s).fault = s.fault := rfl
@[simp] theorem recvStart_cfg (s : State) : (recvStart s).cfg = s.cfg := rfl
@[simp] theorem recvStart_inputs (s : State) : (recvStart s).inputs = s.inputs := rfl
@[simp] theorem recvStart_txAnswers (s : State) : (recvStart s).txAnswers = s.txAnswers := rfl
@[simp] theorem recvStart_rxStream (s : State) : (recvStart s).rxStream = s.rxStream := rfl
@[simp] theorem recvStart_txPort (s : State) : (recvStart s).txPort = s.txPort := rfl
@[simp] theorem recvStart_txLog (s : State) : (recvStart s).txLog = s.txLog := rfl
@[simp] theorem recvStart_doneLog (s : State) : (recvStart s).doneLog = s.doneLog := rfl

/-! ### SendPhase up to its await (42_operations.md R163) -/

@[simp] theorem sendPhase_reportMode (c : Command) (s : State) : (sendPhase c s).reportMode = s.reportMode := rfl
@[simp] theorem sendPhase_powerMode (c : Command) (s : State) : (sendPhase c s).powerMode = s.powerMode := rfl
@[simp] theorem sendPhase_phase (c : Command) (s : State) : (sendPhase c s).phase = .send := rfl
@[simp] theorem sendPhase_op (c : Command) (s : State) : (sendPhase c s).op = s.op := rfl
@[simp] theorem sendPhase_expect (c : Command) (s : State) : (sendPhase c s).expect = s.expect := rfl
@[simp] theorem sendPhase_expCmd (c : Command) (s : State) : (sendPhase c s).expCmd = s.expCmd := rfl
@[simp] theorem sendPhase_decState (c : Command) (s : State) : (sendPhase c s).decState = s.decState := rfl
@[simp] theorem sendPhase_decIdx (c : Command) (s : State) : (sendPhase c s).decIdx = s.decIdx := rfl
@[simp] theorem sendPhase_decLen (c : Command) (s : State) : (sendPhase c s).decLen = s.decLen := rfl
@[simp] theorem sendPhase_buf (c : Command) (s : State) : (sendPhase c s).buf = s.buf := rfl
@[simp] theorem sendPhase_outFrame (c : Command) (s : State) : (sendPhase c s).outFrame = s.outFrame := rfl
@[simp] theorem sendPhase_lastResult (c : Command) (s : State) : (sendPhase c s).lastResult = s.lastResult := rfl
@[simp] theorem sendPhase_fault (c : Command) (s : State) : (sendPhase c s).fault = s.fault := rfl
@[simp] theorem sendPhase_cfg (c : Command) (s : State) : (sendPhase c s).cfg = s.cfg := rfl
@[simp] theorem sendPhase_inputs (c : Command) (s : State) : (sendPhase c s).inputs = s.inputs := rfl
@[simp] theorem sendPhase_txAnswers (c : Command) (s : State) : (sendPhase c s).txAnswers = s.txAnswers := rfl
@[simp] theorem sendPhase_rxStream (c : Command) (s : State) : (sendPhase c s).rxStream = s.rxStream := rfl
@[simp] theorem sendPhase_txPort (c : Command) (s : State) : (sendPhase c s).txPort = some (cmdFrame s.cfg c) := rfl
@[simp] theorem sendPhase_txLog (c : Command) (s : State) : (sendPhase c s).txLog = s.txLog := rfl
@[simp] theorem sendPhase_doneLog (c : Command) (s : State) : (sendPhase c s).doneLog = s.doneLog := rfl

/-! ### the header of the hunt (40_decoder.md R102) -/

@[simp] theorem takeHeader_reportMode (s : State) : (takeHeader s).reportMode = s.reportMode := rfl
@[simp] theorem takeHeader_powerMode (s : State) : (takeHeader s).powerMode = s.powerMode := rfl
@[simp] theorem takeHeader_phase (s : State) : (takeHeader s).phase = s.phase := rfl
@[simp] theorem takeHeader_op (s : State) : (takeHeader s).op = s.op := rfl
@[simp] theorem takeHeader_expect (s : State) : (takeHeader s).expect = s.expect := rfl
@[simp] theorem takeHeader_expCmd (s : State) : (takeHeader s).expCmd = s.expCmd := rfl
@[simp] theorem takeHeader_decState (s : State) : (takeHeader s).decState = .len := rfl
@[simp] theorem takeHeader_decIdx (s : State) : (takeHeader s).decIdx = 2 := rfl
@[simp] theorem takeHeader_decLen (s : State) : (takeHeader s).decLen = s.decLen := rfl
@[simp] theorem takeHeader_buf (s : State) : (takeHeader s).buf = (s.buf.write 0 hdr0).write 1 hdr1 := rfl
@[simp] theorem takeHeader_outFrame (s : State) : (takeHeader s).outFrame = s.outFrame := rfl
@[simp] theorem takeHeader_lastResult (s : State) : (takeHeader s).lastResult = s.lastResult := rfl
@[simp] theorem takeHeader_fault (s : State) : (takeHeader s).fault = s.fault := rfl
@[simp] theorem takeHeader_cfg (s : State) : (takeHeader s).cfg = s.cfg := rfl
@[simp] theorem takeHeader_inputs (s : State) : (takeHeader s).inputs = s.inputs := rfl
@[simp] theorem takeHeader_txAnswers (s : State) : (takeHeader s).txAnswers = s.txAnswers := rfl
@[simp] theorem takeHeader_rxStream (s : State) : (takeHeader s).rxStream = s.rxStream := rfl
@[simp] theorem takeHeader_txPort (s : State) : (takeHeader s).txPort = s.txPort := rfl
@[simp] theorem takeHeader_txLog (s : State) : (takeHeader s).txLog = s.txLog := rfl
@[simp] theorem takeHeader_doneLog (s : State) : (takeHeader s).doneLog = s.doneLog := rfl

/-! ### ModeUpdate (42_operations.md R164): everything but SensorMode -/

@[simp] theorem modeUpdate_phase (c : Command) (s : State) : (modeUpdate c s).phase = s.phase := by cases c <;> rfl
@[simp] theorem modeUpdate_op (c : Command) (s : State) : (modeUpdate c s).op = s.op := by cases c <;> rfl
@[simp] theorem modeUpdate_expect (c : Command) (s : State) : (modeUpdate c s).expect = s.expect := by cases c <;> rfl
@[simp] theorem modeUpdate_expCmd (c : Command) (s : State) : (modeUpdate c s).expCmd = s.expCmd := by cases c <;> rfl
@[simp] theorem modeUpdate_decState (c : Command) (s : State) : (modeUpdate c s).decState = s.decState := by cases c <;> rfl
@[simp] theorem modeUpdate_decIdx (c : Command) (s : State) : (modeUpdate c s).decIdx = s.decIdx := by cases c <;> rfl
@[simp] theorem modeUpdate_decLen (c : Command) (s : State) : (modeUpdate c s).decLen = s.decLen := by cases c <;> rfl
@[simp] theorem modeUpdate_buf (c : Command) (s : State) : (modeUpdate c s).buf = s.buf := by cases c <;> rfl
@[simp] theorem modeUpdate_outFrame (c : Command) (s : State) : (modeUpdate c s).outFrame = s.outFrame := by cases c <;> rfl
@[simp] theorem modeUpdate_lastResult (c : Command) (s : State) : (modeUpdate c s).lastResult = s.lastResult := by cases c <;> rfl
@[simp] theorem modeUpdate_fault (c : Command) (s : State) : (modeUpdate c s).fault = s.fault := by cases c <;> rfl
@[simp] theorem modeUpdate_cfg (c : Command) (s : State) : (modeUpdate c s).cfg = s.cfg := by cases c <;> rfl
@[simp] theorem modeUpdate_inputs (c : Command) (s : State) : (modeUpdate c s).inputs = s.inputs := by cases c <;> rfl
@[simp] theorem modeUpdate_txAnswers (c : Command) (s : State) : (modeUpdate c s).txAnswers = s.txAnswers := by cases c <;> rfl
@[simp] theorem modeUpdate_rxStream (c : Command) (s : State) : (modeUpdate c s).rxStream = s.rxStream := by cases c <;> rfl
@[simp] theorem modeUpdate_txPort (c : Command) (s : State) : (modeUpdate c s).txPort = s.txPort := by cases c <;> rfl
@[simp] theorem modeUpdate_txLog (c : Command) (s : State) : (modeUpdate c s).txLog = s.txLog := by cases c <;> rfl
@[simp] theorem modeUpdate_doneLog (c : Command) (s : State) : (modeUpdate c s).doneLog = s.doneLog := by cases c <;> rfl

/-! ### the first step of a mode operation (R172 to R175) -/

@[simp] theorem modeFirst_reportMode (c : Command) (s : State) : (modeFirst c s).reportMode = s.reportMode := rfl
@[simp] theorem modeFirst_powerMode (c : Command) (s : State) : (modeFirst c s).powerMode = s.powerMode := rfl
@[simp] theorem modeFirst_phase (c : Command) (s : State) : (modeFirst c s).phase = .send := rfl
@[simp] theorem modeFirst_op (c : Command) (s : State) : (modeFirst c s).op = s.op := rfl
@[simp] theorem modeFirst_expect (c : Command) (s : State) : (modeFirst c s).expect = .ack := rfl
@[simp] theorem modeFirst_expCmd (c : Command) (s : State) : (modeFirst c s).expCmd = c := rfl
@[simp] theorem modeFirst_decState (c : Command) (s : State) : (modeFirst c s).decState = s.decState := rfl
@[simp] theorem modeFirst_decIdx (c : Command) (s : State) : (modeFirst c s).decIdx = s.decIdx := rfl
@[simp] theorem modeFirst_decLen (c : Command) (s : State) : (modeFirst c s).decLen = s.decLen := rfl
@[simp] theorem modeFirst_buf (c : Command) (s : State) : (modeFirst c s).buf = s.buf := rfl
@[simp] theorem modeFirst_outFrame (c : Command) (s : State) : (modeFirst c s).outFrame = s.outFrame := rfl
@[simp] theorem modeFirst_lastResult (c : Command) (s : State) : (modeFirst c s).lastResult = s.lastResult := rfl
@[simp] theorem modeFirst_fault (c : Command) (s : State) : (modeFirst c s).fault = s.fault := rfl
@[simp] theorem modeFirst_cfg (c : Command) (s : State) : (modeFirst c s).cfg = s.cfg := rfl
@[simp] theorem modeFirst_inputs (c : Command) (s : State) : (modeFirst c s).inputs = s.inputs := rfl
@[simp] theorem modeFirst_txAnswers (c : Command) (s : State) : (modeFirst c s).txAnswers = s.txAnswers := rfl
@[simp] theorem modeFirst_rxStream (c : Command) (s : State) : (modeFirst c s).rxStream = s.rxStream := rfl
@[simp] theorem modeFirst_txPort (c : Command) (s : State) : (modeFirst c s).txPort = some (cmdFrame s.cfg c) := rfl
@[simp] theorem modeFirst_txLog (c : Command) (s : State) : (modeFirst c s).txLog = s.txLog := rfl
@[simp] theorem modeFirst_doneLog (c : Command) (s : State) : (modeFirst c s).doneLog = s.doneLog := rfl

/-! ### the first step of REQUEST (R171) -/

@[simp] theorem requestFirst_reportMode (s : State) : (requestFirst s).reportMode = s.reportMode := rfl
@[simp] theorem requestFirst_powerMode (s : State) : (requestFirst s).powerMode = s.powerMode := rfl
@[simp] theorem requestFirst_phase (s : State) : (requestFirst s).phase = .send := rfl
@[simp] theorem requestFirst_op (s : State) : (requestFirst s).op = s.op := rfl
@[simp] theorem requestFirst_expect (s : State) : (requestFirst s).expect = .meas := rfl
@[simp] theorem requestFirst_expCmd (s : State) : (requestFirst s).expCmd = s.expCmd := rfl
@[simp] theorem requestFirst_decState (s : State) : (requestFirst s).decState = s.decState := rfl
@[simp] theorem requestFirst_decIdx (s : State) : (requestFirst s).decIdx = s.decIdx := rfl
@[simp] theorem requestFirst_decLen (s : State) : (requestFirst s).decLen = s.decLen := rfl
@[simp] theorem requestFirst_buf (s : State) : (requestFirst s).buf = s.buf := rfl
@[simp] theorem requestFirst_outFrame (s : State) : (requestFirst s).outFrame = s.outFrame := rfl
@[simp] theorem requestFirst_lastResult (s : State) : (requestFirst s).lastResult = s.lastResult := rfl
@[simp] theorem requestFirst_fault (s : State) : (requestFirst s).fault = s.fault := rfl
@[simp] theorem requestFirst_cfg (s : State) : (requestFirst s).cfg = s.cfg := rfl
@[simp] theorem requestFirst_inputs (s : State) : (requestFirst s).inputs = s.inputs := rfl
@[simp] theorem requestFirst_txAnswers (s : State) : (requestFirst s).txAnswers = s.txAnswers := rfl
@[simp] theorem requestFirst_rxStream (s : State) : (requestFirst s).rxStream = s.rxStream := rfl
@[simp] theorem requestFirst_txPort (s : State) : (requestFirst s).txPort = some (cmdFrame s.cfg .requestRead) := rfl
@[simp] theorem requestFirst_txLog (s : State) : (requestFirst s).txLog = s.txLog := rfl
@[simp] theorem requestFirst_doneLog (s : State) : (requestFirst s).doneLog = s.doneLog := rfl
/-! ### reset (70_reset_and_hazards.md R230) -/

theorem resetBlock_eq (s : State) : resetBlock s = { State.resetWith s.cfg with
    inputs := s.inputs, txAnswers := txAfterCut s, rxStream := rxAfterCut s, txLog := s.txLog, doneLog := s.doneLog } := rfl

@[simp] theorem resetBlock_phase (s : State) : (resetBlock s).phase = .idle := rfl
@[simp] theorem resetBlock_fault (s : State) : (resetBlock s).fault = false := rfl
@[simp] theorem resetBlock_cfg (s : State) : (resetBlock s).cfg = s.cfg := rfl
@[simp] theorem resetBlock_inputs (s : State) : (resetBlock s).inputs = s.inputs := rfl
@[simp] theorem resetBlock_txAnswers (s : State) : (resetBlock s).txAnswers = txAfterCut s := rfl
@[simp] theorem resetBlock_rxStream (s : State) : (resetBlock s).rxStream = rxAfterCut s := rfl
@[simp] theorem resetBlock_txPort (s : State) : (resetBlock s).txPort = none := rfl
@[simp] theorem resetBlock_txLog (s : State) : (resetBlock s).txLog = s.txLog := rfl
@[simp] theorem resetBlock_doneLog (s : State) : (resetBlock s).doneLog = s.doneLog := rfl

/-- A cut pull leaves the stream, or the stream less one error at its head (R232). -/
theorem withoutOwedError_cases (st : List RxAnswer) : withoutOwedError st = st ∨
    ∃ a, st = a :: withoutOwedError st ∧ ∀ b, a ≠ .byte b := by
  match st with
  | [] => exact .inl rfl
  | .byte _ :: _ => exact .inl rfl
  | .noResponse :: _ => exact .inr ⟨.noResponse, rfl, nofun⟩
  | .readFailed :: _ => exact .inr ⟨.readFailed, rfl, nofun⟩

/-- Where no request is outstanding a reset leaves every answer with the transport. -/
theorem txAfterCut_other {s : State} (h : s.phase ≠ .send) : txAfterCut s = s.txAnswers := if_neg h
theorem rxAfterCut_other {s : State} (h : s.phase ≠ .recv) : rxAfterCut s = s.rxStream := if_neg h

/-- ModeUpdate and the ends of an operation write different elements. -/
theorem complete_modeUpdate (c : Command) (r : Option OutputFrame) (s : State) :
    complete r (modeUpdate c s) = modeUpdate c (complete r s) := by cases c <;> rfl

/-- ReportMode after ModeUpdate (R24). -/
theorem modeUpdate_reportMode (c : Command) (s : State) : (modeUpdate c s).reportMode =
    (match c with | .enterPassive => .passive | .enterActive => .active | _ => s.reportMode) := by cases c <;> rfl

/-- PowerMode after ModeUpdate (R25). -/
theorem modeUpdate_powerMode (c : Command) (s : State) : (modeUpdate c s).powerMode =
    (match c with | .sleep => .asleep | .wake => .awake | _ => s.powerMode) := by cases c <;> rfl

end Sys2Proof.Machine
end

