-- ==== Sys2Proof/Laws/Ops.lean ====
section
/-! SUPPORT. What each shared operation can do, said once. -/

namespace Sys2Proof.Machine

@[simp] theorem andThen_next (s : State) (k : State → Out) : andThen (.next s) k = k s := rfl
@[simp] theorem andThen_fault (r : Fault) (k : State → Out) : andThen (.fault r) k = .fault r := rfl
@[simp] theorem andThen_refused (r : Refusal) (k : State → Out) : andThen (.refused r) k = .refused r := rfl

/-- A next state of a composition comes through a next state of its first part. -/
theorem andThen_eq_next {o : Out} {k : State → Out} {t : State} (h : andThen o k = .next t) :
    ∃ u, o = .next u ∧ k u = .next t := by
  cases o with
  | next u => exact ⟨u, rfl, h⟩
  | fault r => cases h
  | refused r => cases h

@[simp] theorem unlessFaulted_clear {s : State} {o : Out} (h : s.fault = false) : unlessFaulted s o = o := by
  simp [unlessFaulted, h]

@[simp] theorem unlessFaulted_set {s : State} {o : Out} (h : s.fault = true) :
    unlessFaulted s o = .refused .faulted := by simp [unlessFaulted, h]

/-- A guarded meaning that has a next state was not faulted. -/
theorem unlessFaulted_eq_next {s t : State} {o : Out} (h : unlessFaulted s o = .next t) :
    s.fault = false ∧ o = .next t := by
  by_cases hf : s.fault = true
  · simp [hf] at h
  · exact ⟨by simpa using hf, by simpa [unlessFaulted, hf] using h⟩

/-- What storing a byte can do. -/
theorem storeByte_eq_next {b : Byte} {s t : State} (h : storeByte b s = .next t) :
    s.decIdx < bufSize ∧ t = { s with buf := s.buf.write s.decIdx b, decIdx := s.decIdx + 1 } := by
  unfold storeByte at h
  split at h
  · exact ⟨‹_›, by simpa using h.symm⟩
  · cases h

theorem storeByte_inside {b : Byte} {s : State} (h : s.decIdx < bufSize) :
    storeByte b s = .next { s with buf := s.buf.write s.decIdx b, decIdx := s.decIdx + 1 } := if_pos h

/-- What FrameDone can do: deliver a measurement, acknowledge, or end with IncorrectResponse (R162). -/
theorem frameDone_cases (kind : Shape) (s : State) :
    (s.expect = .meas ∧ kind = .meas ∧
      frameDone kind s = complete (some (measFields s.buf)) { s with outFrame := some (measFields s.buf) }) ∨
    (s.expect = .ack ∧ kind = .ack ∧ ackPayload s.cfg s.buf = s.cfg.ackPayload.get s.expCmd ∧
      frameDone kind s = complete none (modeUpdate s.expCmd s)) ∨
    ((kind ≠ s.expect ∨ s.expect = .ack ∧ ackPayload s.cfg s.buf ≠ s.cfg.ackPayload.get s.expCmd) ∧
      frameDone kind s = raise .incorrectResponse s) := by
  unfold frameDone
  cases he : s.expect with
  | meas => cases kind <;> simp
  | ack =>
    cases kind with
    | meas => simp
    | ack => by_cases hp : ackPayload s.cfg s.buf = s.cfg.ackPayload.get s.expCmd <;> simp [hp]

/-- What Validate can do (R106). -/
theorem validate_cases (s : State) :
    (bufSize < frameLen s ∧ validate s = .fault .noSuchBufferByte) ∨
    (frameLen s ≤ bufSize ∧ sum16 (s.buf.readBytes 0 (frameLen s - 2)) ≠ s.buf.read16 (frameLen s - 2) ∧
      validate s = .next (raise .checksumError s)) ∨
    (frameLen s ≤ bufSize ∧ sum16 (s.buf.readBytes 0 (frameLen s - 2)) = s.buf.read16 (frameLen s - 2) ∧
      validate s = .next (frameDone (shapeOf s.decLen) s)) := by
  unfold validate
  by_cases h1 : bufSize < frameLen s
  · exact .inl ⟨h1, if_pos h1⟩
  · by_cases h2 : sum16 (s.buf.readBytes 0 (frameLen s - 2)) = s.buf.read16 (frameLen s - 2)
    · exact .inr (.inr ⟨by omega, h2, by simp [h1, h2]⟩)
    · exact .inr (.inl ⟨by omega, h2, by simp [h1, h2]⟩)

/-- What the answer to a send can do (R163). -/
theorem sendAnswered_cases (c : Command) (a : TxAnswer) (s : State) :
    let t := { s with txPort := none, txLog := s.txLog ++ [(cmdFrame s.cfg c, a)] }
    (a = .sendFailed ∧ sendAnswered c a s = raise .sendFailed t) ∨
    (a = .ok ∧ s.expect = .ack ∧ s.cfg.ackExpected.get c = false ∧
      sendAnswered c a s = complete none (modeUpdate c t)) ∨
    (a = .ok ∧ ¬ (s.expect = .ack ∧ s.cfg.ackExpected.get c = false) ∧ sendAnswered c a s = recvStart t) := by
  cases a with
  | sendFailed => exact .inl ⟨rfl, rfl⟩
  | ok =>
    by_cases h : s.expect = .ack ∧ s.cfg.ackExpected.get c = false
    · exact .inr (.inl ⟨rfl, h.1, h.2, by simp only [sendAnswered, h, and_self, if_true]⟩)
    · exact .inr (.inr ⟨rfl, h, by simp only [sendAnswered, if_neg h]⟩)

/-- What an accepted, a busy or a faulted start does (R160). -/
theorem startOp_idle {o : HostOp} {first : State → State} {s : State} (hf : s.fault = false) (hp : s.phase = .idle) :
    startOp o first s = .next (first { s with op := o }) := by simp [startOp, hf, hp]

theorem startOp_busy {o : HostOp} {first : State → State} {s : State} (hf : s.fault = false) (hp : s.phase ≠ .idle) :
    startOp o first s = .next { s with fault := true } := by simp [startOp, hf, hp]

/-- The eight codes of the operation port are the eight meanings (30_encoding.md R80, R82). -/
theorem exec_start_eq (code : BitVec 3) (s : State) : exec (decodeHostOp code) s =
    if code = 0 then execRead s else if code = 1 then execRequest s else if code = 2 then execPassive s
    else if code = 3 then execActive s else if code = 4 then execSleep s else if code = 5 then execWake s
    else startReserved s := by
  have h : code = 0 ∨ code = 1 ∨ code = 2 ∨ code = 3 ∨ code = 4 ∨ code = 5 ∨ code = 6 ∨ code = 7 := by
    revert code; decide
  rcases h with h | h | h | h | h | h | h | h <;> subst h <;> rfl

/-- What READ's first step can do (R170). -/
theorem readFirst_cases (s : State) :
    (s.reportMode = .active ∧ readFirst s = recvStart { s with expect := .meas }) ∨
    (s.reportMode = .passive ∧ readFirst s = sendPhase .requestRead { s with expect := .meas }) := by
  cases h : s.reportMode <;> simp [readFirst, h]

/-- What a start can do (R160): mark a fault, or accept its operation. -/
theorem start_cases {s t : State} {code : BitVec 3} (h : exec (decodeHostOp code) s = .next t) : s.fault = false ∧
    (t = { s with fault := true } ∨ s.phase = .idle ∧
      (code = 0 ∧ t = readFirst { s with op := .read } ∨ code = 1 ∧ t = requestFirst { s with op := .request } ∨
        ∃ o : HostOp, o ≠ .read ∧ o ≠ .request ∧ code = o.code ∧ t = modeFirst o.command { s with op := o })) := by
  have key : ∀ (o : HostOp) (first : State → State), startOp o first s = .next t →
      s.fault = false ∧ (t = { s with fault := true } ∨ s.phase = .idle ∧ t = first { s with op := o }) := by
    intro o first h
    obtain ⟨hf, h⟩ := unlessFaulted_eq_next h
    split at h <;> cases h
    · exact ⟨hf, .inl rfl⟩
    · exact ⟨hf, .inr ⟨not_not.1 ‹_›, rfl⟩⟩
  rw [exec_start_eq] at h
  repeat' split at h
  · obtain ⟨hf, h | ⟨hp, h⟩⟩ := key _ _ h
    exacts [⟨hf, .inl h⟩, ⟨hf, .inr ⟨hp, .inl ⟨‹_›, h⟩⟩⟩]
  · obtain ⟨hf, h | ⟨hp, h⟩⟩ := key _ _ h
    exacts [⟨hf, .inl h⟩, ⟨hf, .inr ⟨hp, .inr (.inl ⟨‹_›, h⟩)⟩⟩]
  · obtain ⟨hf, h | ⟨hp, h⟩⟩ := key _ _ h
    exacts [⟨hf, .inl h⟩, ⟨hf, .inr ⟨hp, .inr (.inr ⟨.passive, by decide, by decide, ‹_›, h⟩)⟩⟩]
  · obtain ⟨hf, h | ⟨hp, h⟩⟩ := key _ _ h
    exacts [⟨hf, .inl h⟩, ⟨hf, .inr ⟨hp, .inr (.inr ⟨.active, by decide, by decide, ‹_›, h⟩)⟩⟩]
  · obtain ⟨hf, h | ⟨hp, h⟩⟩ := key _ _ h
    exacts [⟨hf, .inl h⟩, ⟨hf, .inr ⟨hp, .inr (.inr ⟨.sleep, by decide, by decide, ‹_›, h⟩)⟩⟩]
  · obtain ⟨hf, h | ⟨hp, h⟩⟩ := key _ _ h
    exacts [⟨hf, .inl h⟩, ⟨hf, .inr ⟨hp, .inr (.inr ⟨.wake, by decide, by decide, ‹_›, h⟩)⟩⟩]
  · obtain ⟨hf, h⟩ := unlessFaulted_eq_next h
    cases h
    exact ⟨hf, .inl rfl⟩

/-- What each event says of the state (log 1). -/
theorem event_rxAnswered {s : State} {a : RxAnswer} {rest : List RxAnswer} (h : nextEvent s = .rxAnswered a rest) :
    s.fault = false ∧ s.phase = .recv ∧ s.rxStream = a :: rest := by
  unfold nextEvent nextInput at h
  repeat' split at h
  all_goals simp_all

theorem event_txAnswered {s : State} (h : nextEvent s = .txAnswered) :
    s.fault = false ∧ s.phase = .send ∧ s.txAnswers ≠ [] := by
  unfold nextEvent nextInput at h
  repeat' split at h
  all_goals simp_all

theorem event_start {s : State} {code : BitVec 3} {rest : List Input} (h : nextEvent s = .start code rest) :
    s.fault = false ∧ s.inputs = .start code :: rest := by
  unfold nextEvent nextInput at h
  repeat' split at h
  all_goals simp_all

theorem event_reset {s : State} {rest : List Input} (h : nextEvent s = .reset rest) : s.inputs = .reset :: rest := by
  unfold nextEvent nextInput at h
  repeat' split at h
  all_goals simp_all

theorem event_txDraw {s : State} {a : TxAnswer} {rest : List Input} (h : nextEvent s = .txDraw a rest) :
    s.fault = false ∧ s.phase = .send ∧ s.inputs = .tx a :: rest := by
  unfold nextEvent nextInput at h
  repeat' split at h
  all_goals simp_all

/-- An input joins the stream only as a byte or in RECV. -/
theorem nextInput_rxDraw {s : State} {a : RxAnswer} {rest : List Input} (h : nextInput s = .rxDraw a rest) :
    s.inputs = .rx a :: rest ∧ (s.phase = .recv ∨ ∃ b, a = .byte b) := by
  cases hs : s.inputs with
  | nil => simp [nextInput, hs] at h
  | cons i more =>
    cases i with
    | rx a' =>
      cases a' <;> simp [nextInput, hs] at h
      · obtain ⟨rfl, rfl⟩ := h; simp
      all_goals split at h <;> simp_all
    | _ => simp [nextInput, hs] at h <;> (split at h <;> cases h)

/-- An input is dropped only if it is an answer, and no byte. -/
theorem nextInput_dropped {s : State} {rest : List Input} (h : nextInput s = .dropped rest) :
    ∃ i, s.inputs = i :: rest ∧ i.isAnswer = true := by
  cases hs : s.inputs with
  | nil => simp [nextInput, hs] at h
  | cons i more =>
    cases i with
    | rx a =>
      cases a <;> simp [nextInput, hs] at h
      all_goals split at h <;> simp_all [Input.isAnswer]
    | tx a =>
      simp only [nextInput, hs] at h
      split at h <;> simp_all [Input.isAnswer]
    | _ => simp_all [nextInput, Input.isAnswer]

theorem event_rxDraw {s : State} {a : RxAnswer} {rest : List Input} (h : nextEvent s = .rxDraw a rest) :
    s.fault = false ∧ s.inputs = .rx a :: rest ∧ (s.phase = .recv ∨ ∃ b, a = .byte b) := by
  unfold nextEvent at h
  repeat' split at h
  all_goals first | cases h | exact ⟨by simpa using ‹¬ s.fault = true›, nextInput_rxDraw h⟩

theorem event_dropped {s : State} {rest : List Input} (h : nextEvent s = .dropped rest) :
    s.fault = false ∧ ∃ i, s.inputs = i :: rest ∧ i.isAnswer = true := by
  unfold nextEvent at h
  repeat' split at h
  all_goals first | cases h | exact ⟨by simpa using ‹¬ s.fault = true›, nextInput_dropped h⟩

/-- Where no request is outstanding an answer is dropped. -/
theorem nextEvent_answer_idle {s : State} {i : Input} {rest : List Input} (hf : s.fault = false) (hp : s.phase = .idle)
    (hi : s.inputs = i :: rest) (ha : i.isAnswer = true) : nextEvent s = .dropped rest := by
  simp only [nextEvent, nextInput, hf, hp, hi]
  cases i with
  | rx a => cases a <;> first | rfl | cases ha
  | _ => first | rfl | cases ha

/-- An idle block drops every answer at the head of its inputs (70_reset_and_hazards.md R232). -/
theorem step_answer_idle {s : State} {i : Input} {rest : List Input} (hf : s.fault = false) (hp : s.phase = .idle)
    (hi : s.inputs = i :: rest) (ha : i.isAnswer = true) : step s = .next { s with inputs := rest } := by
  simp [step, nextEvent_answer_idle hf hp hi ha]

/-- A frame the decoder holds is validated (R106). -/
theorem rxFrame_held {bytes : List Byte} {s : State} (hf : s.fault = false) (hh : holds s bytes = true) :
    rxFrame bytes s = validate s := by simp [rxFrame, hf, hh]

theorem rxFrame_other {bytes : List Byte} {s : State} (hf : s.fault = false) (hh : holds s bytes = false) :
    rxFrame bytes s = .next { s with rxStream := s.rxStream ++ byteDraws bytes } := by
  simp [rxFrame, hf, hh, byteDraws]

/-- What holding a frame means. -/
theorem holds_iff {s : State} {bytes : List Byte} : holds s bytes = true ↔
    s.phase = .recv ∧ s.decState = .body ∧ s.decIdx = frameLen s ∧ heldFrame s = bytes := by
  simp [holds, frameComplete, and_assoc]

/-- A held frame is as long as its declared length says. -/
theorem holds_length {s : State} {bytes : List Byte} (h : holds s bytes = true) : bytes.length = frameLen s := by
  rw [← (holds_iff.1 h).2.2.2, heldFrame, length_readBytes]

/-- Every received-frame instruction is `rxFrame` of its bytes. -/
theorem exec_rx {i : Instr} (h : i.port = .rx) (s : State) : exec i s = rxFrame (encode s.cfg i) s := by
  cases i <;> first | rfl | cases h

/-- Every command-frame instruction is `cmdStep` of its command. -/
@[simp] theorem exec_cmdInstr (c : Command) (s : State) : exec (cmdInstr c) s = cmdStep c s := by cases c <;> rfl

/-- What a command frame can do (R163; log 16). -/
theorem cmdStep_cases {c : Command} {s : State} (hf : s.fault = false) :
    (∃ a rest, s.phase = .send ∧ s.txPort = some (cmdFrame s.cfg c) ∧ s.txAnswers = a :: rest ∧
      cmdStep c s = .next (sendAnswered c a { s with txAnswers := rest })) ∨
    ((s.phase ≠ .send ∨ s.txPort ≠ some (cmdFrame s.cfg c) ∨ s.txAnswers = []) ∧ cmdStep c s = .next s) := by
  unfold cmdStep
  rw [unlessFaulted_clear hf]
  by_cases h : s.phase = .send ∧ s.txPort = some (cmdFrame s.cfg c)
  · rw [if_pos h]
    cases ha : s.txAnswers with
    | nil => exact .inr ⟨by simp, rfl⟩
    | cons a rest => exact .inl ⟨a, rest, h.1, h.2, rfl, rfl⟩
  · rw [if_neg h]
    refine .inr ⟨?_, rfl⟩
    by_cases hp : s.phase = .send
    · exact .inr (.inl fun e => h ⟨hp, e⟩)
    · exact .inl hp

/-- The next event of a block with no fault mark that waits for a byte. -/
theorem nextEvent_recv {s : State} {a : RxAnswer} {rest : List RxAnswer} (hf : s.fault = false) (hp : s.phase = .recv)
    (hr : s.rxStream = a :: rest) : nextEvent s = .rxAnswered a rest := by simp [nextEvent, hf, hp, hr]

theorem nextEvent_send {s : State} {a : TxAnswer} {rest : List TxAnswer} (hf : s.fault = false) (hp : s.phase = .send)
    (ha : s.txAnswers = a :: rest) : nextEvent s = .txAnswered := by simp [nextEvent, hf, hp, ha]

theorem nextEvent_start {s : State} {code : BitVec 3} {rest : List Input} (hf : s.fault = false) (hp : s.phase = .idle)
    (hi : s.inputs = .start code :: rest) : nextEvent s = .start code rest := by simp [nextEvent, nextInput, hf, hp, hi]

/-- A pull answered by the transport. -/
theorem step_recv {s : State} {a : RxAnswer} {rest : List RxAnswer} (hf : s.fault = false) (hp : s.phase = .recv)
    (hr : s.rxStream = a :: rest) : step s = andThen (recvAnswer a { s with rxStream := rest }) runFrame := by
  simp [step, nextEvent_recv hf hp hr]

/-- Outside a complete frame, `runFrame` does nothing. -/
theorem runFrame_incomplete {s : State} (h : frameComplete s = false) : runFrame s = .next s := by simp [runFrame, h]

/-- A held frame that decodes to an instruction is validated, whichever instruction it is. -/
theorem exec_of_held {s : State} {i : Instr} (hf : s.fault = false) (hp : i.port = .rx)
    (hh : holds s (encode s.cfg i) = true) : exec i s = validate s := by rw [exec_rx hp, rxFrame_held hf hh]

/-- What a step can do. -/
theorem step_cases (s : State) :
    (nextEvent s = .stopped ∧ step s = .refused .faulted) ∨
    (∃ rest, nextEvent s = .reset rest ∧ step s = .next (resetBlock { s with inputs := rest })) ∨
    (nextEvent s = .txAnswered ∧ step s = cmdStep s.op.command s) ∨
    (∃ a rest, nextEvent s = .rxAnswered a rest ∧
      step s = andThen (recvAnswer a { s with rxStream := rest }) runFrame) ∨
    (∃ code rest, nextEvent s = .start code rest ∧ step s = exec (decodeHostOp code) { s with inputs := rest }) ∨
    (∃ a rest, nextEvent s = .txDraw a rest ∧ step s = .next { s with inputs := rest, txAnswers := s.txAnswers ++ [a] }) ∨
    (∃ a rest, nextEvent s = .rxDraw a rest ∧ step s = .next { s with inputs := rest, rxStream := s.rxStream ++ [a] }) ∨
    (∃ rest, nextEvent s = .dropped rest ∧ step s = .next { s with inputs := rest }) ∨
    (nextEvent s = .waiting ∧ step s = .next s) := by
  unfold step
  cases h : nextEvent s <;> simp

end Sys2Proof.Machine
end

