-- ==== Sys2Proof/Laws/PerInstr.lean ====
section
/-! SUPPORT. Facts about every instruction as syntax, one lemma per constructor. -/

namespace Sys2Proof.Laws.EncodedLength

/-- The length of an instruction's encoding: one byte for a code, 7 for a command frame, 32 for a measurement, `4 + ACK_LEN`
for an acknowledgement (30_encoding.md R71 to R73, R83). -/
def bytes (cfg : Config) : Instr → Nat
  | .read | .request | .passive | .active | .sleep | .wake | .reservedOp6 | .reservedOp7 => 1
  | .cmdEnterPassive | .cmdEnterActive | .cmdRequestRead | .cmdSleep | .cmdWake => 7
  | .rxMeas _ _ => 32
  | .rxAck _ _ | .rxAckEnterPassive | .rxAckEnterActive | .rxAckSleep | .rxAckWake => 4 + cfg.ackLen.toNat

/-- A well-formed instruction's encoding has the length of its format. -/
def Statement (i : Instr) : Prop :=
  ∀ cfg : Config, cfg.WF → i.WF cfg = true → (encode cfg i).length = bytes cfg i

theorem read : Statement .read := fun _ _ _ => rfl
theorem request : Statement .request := fun _ _ _ => rfl
theorem passive : Statement .passive := fun _ _ _ => rfl
theorem active : Statement .active := fun _ _ _ => rfl
theorem sleep : Statement .sleep := fun _ _ _ => rfl
theorem wake : Statement .wake := fun _ _ _ => rfl
theorem reservedOp6 : Statement .reservedOp6 := fun _ _ _ => rfl
theorem reservedOp7 : Statement .reservedOp7 := fun _ _ _ => rfl
theorem cmdEnterPassive : Statement .cmdEnterPassive := fun cfg _ _ => length_cmdFrame cfg _
theorem cmdEnterActive : Statement .cmdEnterActive := fun cfg _ _ => length_cmdFrame cfg _
theorem cmdRequestRead : Statement .cmdRequestRead := fun cfg _ _ => length_cmdFrame cfg _
theorem cmdSleep : Statement .cmdSleep := fun cfg _ _ => length_cmdFrame cfg _
theorem cmdWake : Statement .cmdWake := fun cfg _ _ => length_cmdFrame cfg _
theorem rxMeas (f : OutputFrame) (chk : Half) : Statement (.rxMeas f chk) := fun _ _ _ => length_measFrame f chk

theorem rxAck (p : List Byte) (chk : Half) : Statement (.rxAck p chk) := by
  intro cfg hc hw
  have hp : p.length = cfg.ackLen.toNat - 2 := (of_decide_eq_true hw).1
  have := hc.1
  simp only [encode, bytes, List.length_append, length_rxHead, length_beBytes16]
  omega

theorem rxAckEnterPassive : Statement .rxAckEnterPassive := fun _ hc _ => length_ackFrame hc (by decide)
theorem rxAckEnterActive : Statement .rxAckEnterActive := fun _ hc _ => length_ackFrame hc (by decide)
theorem rxAckSleep : Statement .rxAckSleep := fun _ hc _ => length_ackFrame hc (by decide)
theorem rxAckWake : Statement .rxAckWake := fun _ hc _ => length_ackFrame hc (by decide)

end Sys2Proof.Laws.EncodedLength
end

