-- ==== Sys2Proof/Tests/Slice0.lean ====
section
/-! SUPPORT. Tests on small states, one step each, with results taken from spec/95_test_vectors.md or from the encoding tables
of the spec; and, for every statement with hypotheses, a concrete state that meets them. -/

namespace Sys2Proof.Tests

open Sys2Proof Sys2Proof.Machine

/-! ### Helpers -/

/-- The outcome is a next state with this property. -/
def nextIs (o : Out) (p : State → Bool) : Bool :=
  match o with
  | .next t => p t
  | .fault _ => false
  | .refused _ => false

/-- The outcome is the refusal of a faulted block. -/
def isFaultedRefusal (o : Out) : Bool :=
  match o with
  | .refused .faulted => true
  | .refused _ => false
  | .next _ => false
  | .fault _ => false

/-- 13 equal fields. -/
def fieldsAll (v : Half) : OutputFrame := ⟨List.replicate 13 v, by simp⟩

/-- Fields 0, 1, ..., 12: the frame IDX of 95_test_vectors.md. -/
def fieldsIdx : OutputFrame := ⟨[0, 1, 2, 3, 4, 5, 6, 7, 8, 9, 10, 11, 12], rfl⟩

/-- The frame ONES of 95_test_vectors.md, byte 0 most significant. -/
def onesWord : Nat := 0x424D001C000100010001000100010001000100010001000100010001000100B8

/-- A receive phase of `op` with the last byte of a 32-byte or 8-byte frame next on the stream. -/
def lastByteOf (nbits w : Nat) (op : HostOp) (e : Shape) (c : Command) : State :=
  { State.reset.withFetchWord nbits w with op := op, expect := e, expCmd := c }

/-- A send phase of `op` with its command outstanding. -/
def sendingState (op : HostOp) (e : Shape) (c : Command) (answers : List TxAnswer) : State :=
  { State.reset with phase := .send, op := op, expect := e, expCmd := c,
                     txPort := some (cmdFrame Config.default op.command), txAnswers := answers }

/-- A receive phase at its start. -/
def receivingState (e : Shape) (c : Command) (stream : List RxAnswer) : State :=
  { State.reset with phase := .recv, expect := e, expCmd := c, rxStream := stream }

/-- A decoder in `d` with these bytes of the frame in the buffer. -/
def decoderState (d : DecState) (bytes : List Byte) (len : Half) (stream : List RxAnswer) : State :=
  { State.reset with phase := .recv, decState := d, decIdx := bytes.length, decLen := len,
                     buf := loadBytes [] 0 bytes, rxStream := stream }

/-- A decoder that holds a complete frame. -/
def heldState (bytes : List Byte) (e : Shape) (c : Command) : State :=
  { decoderState .body bytes (be16 (bytes.getD 2 0) (bytes.getD 3 0)) [] with expect := e, expCmd := c }

/-- The parameters of vector O20: Wake is not acknowledged. -/
def silentWake : Config :=
  { Config.default with ackExpected := { Config.default.ackExpected with wake := false } }

/-- The default parameters but for acknowledgements with `n` payload bytes. -/
def ackLengthOf (n : Nat) : Config :=
  let p : List Byte := List.replicate n 0
  { Config.default with ackLen := BitVec.ofNat 16 (n + 2), ackPayload := ⟨p, p, [], p, p⟩ }

/-! ### The terms the checks refuse (40_decoder.md R110; 41_encoder.md R148) -/

theorem test_ack_payload_of_three_bytes_refused : Instr.WF Config.default (.rxAck [0xE1, 0x00, 0x00] 0) = false := by
  decide

theorem test_named_ack_as_generic_refused : Instr.WF Config.default (.rxAck [0xE1, 0x00] 0x0174) = false := by decide

theorem test_named_ack_with_wrong_checksum_is_generic : Instr.WF Config.default (.rxAck [0xE1, 0x00] 0x0175) = true := by
  decide

/-! ### Decoding: every row, by the word the spec writes out (30_encoding.md R80, 41_encoder.md R141, R148) -/

theorem test_decode_host_codes : (List.range 8).map (decodeTableWord 8) =
    [some .read, some .request, some .passive, some .active, some .sleep, some .wake, some .reservedOp6,
     some .reservedOp7] := by decide

theorem test_decode_host_byte_eight_rejected : decodeHost [8] = .error .badOpCode := by decide

theorem test_decode_enter_passive : decode Config.default .tx [0x42, 0x4D, 0xE1, 0x00, 0x00, 0x01, 0x70] =
    .ok .cmdEnterPassive := by decide
theorem test_decode_enter_active : decodeTableWord 56 0x424DE100010171 = some .cmdEnterActive := by decide
theorem test_decode_request_read : decodeTableWord 56 0x424DE200000171 = some .cmdRequestRead := by decide
theorem test_decode_sleep : decodeTableWord 56 0x424DE400000173 = some .cmdSleep := by decide
theorem test_decode_wake : decodeTableWord 56 0x424DE400010174 = some .cmdWake := by decide
theorem test_decode_command_bad_checksum : decode Config.default .tx [0x42, 0x4D, 0xE1, 0x00, 0x00, 0x01, 0x71] =
    .error .badCommandChecksum := by decide
theorem test_decode_unknown_command : decode Config.default .tx [0x42, 0x4D, 0xE3, 0x00, 0x00, 0x01, 0x72] =
    .error .notACommand := by decide

/-- 95_test_vectors.md S1: the source's worked example. -/
theorem test_decode_ones : decodeTableWord 256 onesWord = some (.rxMeas (fieldsAll 1) 0x00B8) := by decide
/-- 95_test_vectors.md D5: field 0 is 258, not 513. -/
theorem test_decode_field_is_big_endian : (fieldsOf ([0x01, 0x02] ++ List.replicate 24 0)).fields.head? = some 258 := by
  decide
theorem test_decode_ack_passive : decodeTableWord 64 0x424D0004E1000174 = some .rxAckEnterPassive := by decide
theorem test_decode_ack_active : decodeTableWord 64 0x424D0004E1010175 = some .rxAckEnterActive := by decide
theorem test_decode_ack_sleep : decodeTableWord 64 0x424D0004E4000177 = some .rxAckSleep := by decide
theorem test_decode_ack_wake : decodeTableWord 64 0x424D0004E4010178 = some .rxAckWake := by decide
theorem test_decode_ack_generic : decodeTableWord 32 0x424D0004 = some (.rxAck [0, 0] 0) := by decide
theorem test_decode_length_byte_order : decode Config.default .rx [0x42, 0x4D, 0x1C, 0x00] = .error .badLength := by decide
theorem test_decode_truncated_frame : decode Config.default .rx [0x42, 0x4D, 0x00, 0x04, 0xE1] = .error .truncated := by
  decide

/-! ### Arithmetic (95_test_vectors.md A1 to A7) -/

theorem test_sum16_empty : sum16 [] = 0 := by decide
theorem test_sum16_header : sum16 [0x42, 0x4D] = 0x008F := by decide
theorem test_sum16_wraps : sum16 (List.replicate 258 0xFF) = 0x00FE := by
  rw [sum16, plainSum, List.map_replicate, List.sum_replicate]
  decide
theorem test_be16 : be16 0x01 0x02 = 258 := by decide
/-- 95_test_vectors.md E7: the largest command checksum. -/
theorem test_largest_command_checksum : sealFrame (cmdHead 0xFF 0xFFFF) = [0x42, 0x4D, 0xFF, 0xFF, 0xFF, 0x03, 0x8C] := by
  decide

/-! ### Memory and views -/

theorem test_memory_keeps_order : (Memory.write (Memory.write [] 5 1) 2 7) = [(2, 7), (5, 1)] := by decide
theorem test_memory_drops_fill : (Memory.write (Memory.write [] 5 1) 5 0) = [] := by decide
/-- 95_test_vectors.md section 3: every program starts with STATUS 0x70. -/
theorem test_status_after_reset : State.reset.status = 0x70 := by decide
/-- 95_test_vectors.md P1: STATUS 0x09 in Passive mode with a frame delivered. -/
theorem test_status_passive_with_frame :
    State.status { State.reset with reportMode := .passive, outFrame := some (fieldsAll 1), lastResult := .ok } = 0x09 := by
  decide

/-- 30_encoding.md R85: the result codes. -/
theorem test_result_codes : ([.ok, .err .checksumError, .err .readFailed, .err .sendFailed, .err .incorrectResponse,
    .err .noResponse, .none] : List OpResult).map OpResult.code = [0, 1, 2, 3, 4, 5, 7] := by decide

/-! ### One step of each instruction -/

/-- O1: READ in Active mode sends nothing. -/
theorem test_read_active : nextIs (exec .read State.reset) (fun t => t.phase = .recv ∧ t.txPort = none) = true := by decide
/-- O2: READ in Passive mode sends E3. -/
theorem test_read_passive : nextIs (exec .read { State.reset with reportMode := .passive }) (fun t => t.phase = .send ∧
    t.txPort = some [0x42, 0x4D, 0xE2, 0x00, 0x00, 0x01, 0x71]) = true := by decide
/-- O4: REQUEST in Active mode is forwarded. -/
theorem test_request_active : nextIs (exec .request State.reset) (fun t =>
    t.txPort = some [0x42, 0x4D, 0xE2, 0x00, 0x00, 0x01, 0x71] ∧ t.expect = .meas) = true := by decide
/-- E1. -/
theorem test_passive : nextIs (exec .passive State.reset) (fun t =>
    t.txPort = some [0x42, 0x4D, 0xE1, 0x00, 0x00, 0x01, 0x70] ∧ t.reportMode = .active) = true := by decide
/-- E2. -/
theorem test_active : nextIs (exec .active State.reset) (fun t =>
    t.txPort = some [0x42, 0x4D, 0xE1, 0x00, 0x01, 0x01, 0x71]) = true := by decide
/-- E4. -/
theorem test_sleep : nextIs (exec .sleep State.reset) (fun t =>
    t.txPort = some [0x42, 0x4D, 0xE4, 0x00, 0x00, 0x01, 0x73] ∧ t.powerMode = .awake) = true := by decide
/-- E5. -/
theorem test_wake : nextIs (exec .wake State.reset) (fun t =>
    t.txPort = some [0x42, 0x4D, 0xE4, 0x00, 0x01, 0x01, 0x74]) = true := by decide
/-- O18. -/
theorem test_reserved_6 : nextIs (exec .reservedOp6 State.reset) (fun t => t.fault ∧ t.doneLog = []) = true := by decide
theorem test_reserved_7 : nextIs (exec .reservedOp7 State.reset) (fun t => t.fault) = true := by decide
theorem test_after_reserved_refused : isFaultedRefusal (step { State.reset with fault := true, inputs := [.start 0] }) = true := by
  decide
/-- O19. -/
theorem test_start_while_busy : nextIs (exec .wake (receivingState .meas .wake [])) (fun t => t.fault ∧ t.phase = .recv) = true := by
  decide
/-- O8. -/
theorem test_cmd_enter_passive_fails : nextIs (exec .cmdEnterPassive (sendingState .passive .ack .enterPassive [.sendFailed]))
    (fun t => t.lastResult = .err .sendFailed ∧ t.phase = .idle ∧ t.reportMode = .active) = true := by decide
theorem test_cmd_enter_active : nextIs (exec .cmdEnterActive (sendingState .active .ack .enterActive [.ok]))
    (fun t => t.phase = .recv ∧ t.txPort = none ∧ t.txLog.length = 1) = true := by decide
theorem test_cmd_request_read : nextIs (exec .cmdRequestRead (sendingState .read .meas .wake [.ok, .sendFailed]))
    (fun t => t.phase = .recv ∧ t.txAnswers = [.sendFailed]) = true := by decide
theorem test_cmd_sleep_waits : nextIs (exec .cmdSleep (sendingState .sleep .ack .sleep []))
    (fun t => t = sendingState .sleep .ack .sleep []) = true := by decide
/-- O20: with no acknowledgement expected, WAKE succeeds after its send. -/
theorem test_cmd_wake_unacknowledged : nextIs (exec .cmdWake { sendingState .wake .ack .wake [.ok] with
    cfg := silentWake, powerMode := .asleep }) (fun t => t.lastResult = .ok ∧ t.powerMode = .awake ∧ t.phase = .idle) = true := by
  decide
/-- D1, the last byte. -/
theorem test_rx_meas_ones : nextIs (step (lastByteOf 256 onesWord .read .meas .wake))
    (fun t => t.outFrame = some (fieldsAll 1) ∧ t.lastResult = .ok ∧ t.phase = .idle) = true := by decide
/-- D7, the last byte. -/
theorem test_rx_meas_bad_checksum : nextIs (step (lastByteOf 256 (onesWord + 1) .read .meas .wake))
    (fun t => t.outFrame = none ∧ t.lastResult = .err .checksumError) = true := by decide
/-- D17, the last byte. -/
theorem test_rx_ack_during_read : nextIs (step (lastByteOf 64 0x424D0004E1000174 .read .meas .wake))
    (fun t => t.lastResult = .err .incorrectResponse) = true := by decide
/-- D24: the checksum is judged before the payload. -/
theorem test_rx_ack_checksum_first : nextIs (step (lastByteOf 64 0x424D0004E4000178 .passive .ack .enterPassive))
    (fun t => t.lastResult = .err .checksumError) = true := by decide
/-- O5. -/
theorem test_rx_ack_enter_passive : nextIs (step (lastByteOf 64 0x424D0004E1000174 .passive .ack .enterPassive))
    (fun t => t.lastResult = .ok ∧ t.reportMode = .passive) = true := by decide
/-- O6. -/
theorem test_rx_ack_enter_active_during_passive : nextIs (step (lastByteOf 64 0x424D0004E1010175 .passive .ack .enterPassive))
    (fun t => t.lastResult = .err .incorrectResponse ∧ t.reportMode = .active) = true := by decide
/-- O11. -/
theorem test_rx_ack_sleep : nextIs (step (lastByteOf 64 0x424D0004E4000177 .sleep .ack .sleep))
    (fun t => t.lastResult = .ok ∧ t.powerMode = .asleep) = true := by decide
/-- O13. -/
theorem test_rx_ack_wake : nextIs (step { lastByteOf 64 0x424D0004E4010178 .wake .ack .wake with powerMode := .asleep })
    (fun t => t.lastResult = .ok ∧ t.powerMode = .awake) = true := by decide
/-- O7: a streamed measurement before the acknowledgement. -/
theorem test_rx_meas_during_passive : nextIs (step (lastByteOf 256 onesWord .passive .ack .enterPassive))
    (fun t => t.lastResult = .err .incorrectResponse ∧ t.reportMode = .active) = true := by decide
/-- D14: the length is judged at the fourth byte. -/
theorem test_bad_length : nextIs (step (decoderState .len [0x42, 0x4D, 0x00] 0 [.byte 0x1D, .byte 0]))
    (fun t => t.lastResult = .err .incorrectResponse ∧ t.rxStream = [.byte 0]) = true := by decide
/-- D13: `42 42 4D` synchronises on the second `42`. -/
theorem test_hunt_overlap : nextIs (step { receivingState .meas .wake [.byte 0x42] with decState := .hunt1 })
    (fun t => t.decState = .hunt1) = true := by decide
/-- A reset abandons a receive phase and leaves the unpulled bytes (R232). -/
theorem test_reset_in_progress : nextIs (step { sendingState .sleep .ack .sleep [] with
    inputs := [.reset], rxStream := [.byte 1], powerMode := .asleep })
    (fun t => t.phase = .idle ∧ t.doneLog = [] ∧ t.rxStream = [.byte 1] ∧ t.powerMode = .awake) = true := by decide

/-- After a reset that cut a send, the transport's late answer is dropped: no send is outstanding (R232, 93 U16). -/
theorem test_answer_after_reset_dropped : nextIs (step { State.reset with inputs := [.tx .sendFailed, .start 4] })
    (fun t => t = { State.reset with inputs := [.start 4] }) = true := by decide
/-- A late answer is dropped while a new send is outstanding (R232). -/
theorem test_late_answer_dropped : nextIs (step { sendingState .sleep .ack .sleep [] with inputs := [.lateTx .sendFailed] })
    (fun t => t = sendingState .sleep .ack .sleep []) = true := by decide

/-! ### A table word placed after reset is what the next step runs -/

theorem test_fetch_host : nextIs (step (State.reset.withFetchWord 8 2)) (fun t => t.op = .passive ∧ t.phase = .send) = true := by
  decide
theorem test_fetch_command : nextIs (step (State.reset.withFetchWord 56 0x424DE400010174))
    (fun t => t.phase = .recv ∧ t.txLog.length = 1) = true := by decide
/-- The table's 32-bit row of a measurement frame, its other bytes zero: the checksum 0 is not 0x00AB. -/
theorem test_fetch_measurement : nextIs (step (State.reset.withFetchWord 32 0x424D001C))
    (fun t => t.lastResult = .err .checksumError) = true := by decide

/-! ### States that meet the statements' hypotheses -/

theorem default_wf : Config.default.WF := by unfold Config.WF; decide

theorem default_distinct : Config.default.Distinct := by unfold Config.Distinct; decide

/-- DecodeOfEncodeIsTheInstruction, a generic acknowledgement among the instructions. -/
theorem witness_decode_of_encode :
    Config.default.WF ∧ Config.default.Distinct ∧ Instr.WF Config.default (.rxAck [0xE1, 0x00] 0x0175) = true :=
  ⟨default_wf, default_distinct, by decide⟩

/-- EncodeOfDecodedIsTheBytes, on each port. -/
theorem witness_encode_of_decoded : Config.default.WF ∧ decode Config.default .host [5] = .ok .wake ∧
    decode Config.default .tx [0x42, 0x4D, 0xE4, 0x00, 0x00, 0x01, 0x73] = .ok .cmdSleep ∧
    decode Config.default .rx [0x42, 0x4D, 0x00, 0x04, 0xE4, 0x00, 0x01, 0x78] = .ok (.rxAck [0xE4, 0x00] 0x0178) :=
  ⟨default_wf, by decide, by decide, by decide⟩

/-- ChecksumOfAcceptedFramesNeverWraps: a payload of two bytes, the shortest and the longest payload R110 admits, and a
complete frame of either shape in the buffer. -/
theorem witness_checked_sums : ([0xFF, 0xFF] : List Byte).length = 2 ∧
    (∀ n ∈ [0, 25], (ackLengthOf n).WF ∧ ackPayloadFits (ackLengthOf n) (List.replicate n 0xFF)) ∧
    (let s := heldState (measEncode fieldsIdx) .meas .wake
     s.cfg.WF ∧ s.decLen = measLen) ∧
    (let s := heldState (ackFrame Config.default .wake) .ack .wake
     s.cfg.WF ∧ s.decLen = s.cfg.ackLen) :=
  ⟨rfl, by unfold Config.WF; decide, ⟨default_wf, by decide⟩, default_wf, by decide⟩

/-- ResetGivesTheResetValues and ResetAbandonsTheOperation. -/
theorem witness_reset_event : nextEvent { sendingState .sleep .ack .sleep [] with inputs := [.reset, .start 0] } =
    .reset [.start 0] := by decide

/-- ResetAbandonsTheOperation: a faulted send with its answer held, and a faulted pull with an error, or a byte, held. -/
theorem witness_reset_owed :
    (let s := { sendingState .sleep .ack .sleep [.ok, .sendFailed] with fault := true, inputs := [.reset] }
     nextEvent s = .reset [] ∧ s.phase = .send ∧ nextIs (step s) (fun t => t.txAnswers = [.sendFailed]) = true) ∧
    (let s := { receivingState .meas .wake [.noResponse, .byte 1] with fault := true, inputs := [.reset] }
     nextEvent s = .reset [] ∧ s.phase = .recv ∧ nextIs (step s) (fun t => t.rxStream = [.byte 1]) = true) ∧
    (let s := { receivingState .meas .wake [.byte 1] with fault := true, inputs := [.reset] }
     nextEvent s = .reset [] ∧ nextIs (step s) (fun t => t.rxStream = [.byte 1]) = true) := by decide

/-- ResetDropsTheAnswersOwed: a cut send, each answer that can follow, then the next start. -/
theorem witness_answers_owed :
    let owed : List Input := [.tx .sendFailed, .rx .noResponse, .rx .readFailed, .lateTx .ok, .lateRx (.byte 1)]
    nextEvent { sendingState .passive .ack .enterPassive [] with inputs := .reset :: (owed ++ [.start 4]) } =
      .reset (owed ++ [.start 4]) ∧ (∀ i ∈ owed, i.isAnswer = true) := by decide

/-- OnlyOutstandingRequestsAreAnswered, each clause: idle, sending and receiving blocks that wait. -/
theorem witness_waiting : ∀ s ∈ [State.reset, sendingState .sleep .ack .sleep [], receivingState .meas .wake []],
    ∀ i ∈ ([.lateTx .ok, .lateRx .noResponse, .tx .ok, .rx .noResponse, .rx .readFailed, .rx (.byte 1)] : List Input),
    Waiting { s with inputs := [i] } ∧ nextIs (step { s with inputs := [i] }) (fun t => t.inputs = []) = true := by decide

/-- StreamIsPulledInOrder: the invariant at a reset that drops an owed error. -/
theorem witness_pull_cut : let s := { receivingState .meas .requestRead [.noResponse] with fault := true, inputs := [.reset] }
    Inv s ∧ nextIs (step s) (fun t => t.rxStream = []) = true :=
  ⟨⟨default_wf, by decide, by decide, by decide, fun _ => rfl, nofun, fun _ => rfl⟩, by decide⟩

/-- IdleBlockActsOnlyOnStart: an idle block that a byte reaches, one that an answer reaches, and one that waits. -/
theorem witness_idle_draw : (let s := { State.reset with inputs := [.rx (.byte 0x42)] }
    s.phase = .idle ∧ (∀ code rest, nextEvent s ≠ .start code rest) ∧ NoReset s ∧
    step s = .next { s with inputs := [], rxStream := [.byte 0x42] }) ∧
    (let s := { State.reset with inputs := [.tx .ok] }
    s.phase = .idle ∧ (∀ code rest, nextEvent s ≠ .start code rest) ∧ NoReset s ∧
    step s = .next { s with inputs := [] }) ∧
    (∀ code rest, nextEvent State.reset ≠ .start code rest) ∧ NoReset State.reset ∧ step State.reset = .next State.reset :=
  ⟨⟨rfl, nofun, nofun, rfl⟩, ⟨rfl, nofun, nofun, rfl⟩, nofun, nofun, rfl⟩

/-- StartStepRunsTheDecodedOperation. -/
theorem witness_start_event : nextEvent { State.reset with inputs := [.start 7] } = .start 7 [] := by decide

/-- The invariant in a send phase: SendStepRunsTheOutstandingCommand. -/
theorem witness_inv_sending : Inv (sendingState .passive .ack .enterPassive [.ok]) where
  cfg_wf := default_wf
  buf_wf := by decide
  idx_le := by decide
  port := by decide
  expects := fun _ => ⟨rfl, rfl⟩
  quiet := by decide
  decoder := nofun

theorem witness_send_step : let s := sendingState .passive .ack .enterPassive [.ok]
    Inv s ∧ s.fault = false ∧ s.phase = .send ∧ s.txAnswers ≠ [] ∧ s.cfg.Distinct :=
  ⟨witness_inv_sending, rfl, rfl, by decide, default_distinct⟩

/-- OneSendForEachSendPhase: a step that leaves SEND, and one that stays there (a start while busy), with no reset. -/
theorem witness_send_logged : (let s := sendingState .passive .ack .enterPassive [.ok]
     Inv s ∧ NoReset s ∧ s.phase = .send ∧ nextIs (step s) (fun t => t.phase ≠ .send ∧
       t.txLog = s.txLog ++ [([0x42, 0x4D, 0xE1, 0x00, 0x00, 0x01, 0x70], .ok)]) = true) ∧
    (let s := { sendingState .passive .ack .enterPassive [] with inputs := [.start 0] }
     Inv s ∧ NoReset s ∧ nextIs (step s) (fun t => t.phase = .send) = true) :=
  ⟨⟨witness_inv_sending, nofun, rfl, by decide⟩,
   ⟨default_wf, by decide, by decide, by decide, fun _ => ⟨rfl, rfl⟩, by decide, nofun⟩, nofun, by decide⟩

/-- The invariant before the last byte of a frame. -/
theorem witness_inv_last_byte : Inv (lastByteOf 64 0x424D0004E1000174 .passive .ack .enterPassive) where
  cfg_wf := default_wf
  buf_wf := by decide
  idx_le := by decide
  port := by decide
  expects := fun _ => ⟨rfl, rfl⟩
  quiet := nofun
  decoder := fun _ => ⟨.inr rfl, by decide, by decide, ⟨by decide, by decide⟩, by decide⟩

/-- LastByteStepRunsTheDecodedFrame. -/
theorem witness_last_byte : let s := lastByteOf 64 0x424D0004E1000174 .passive .ack .enterPassive
    Inv s ∧ s.fault = false ∧ s.phase = .recv ∧ s.decState = .body ∧ s.decIdx + 1 = frameLen s ∧
    s.rxStream = .byte 0x74 :: [] :=
  ⟨witness_inv_last_byte, rfl, rfl, rfl, by decide, by decide⟩

/-- The statements about an idle block: ReadInActiveModeStartsReceiving, ReadInPassiveModeAndRequestSendRequestRead (both
modes), ModeOperationsSendTheirCommand. -/
theorem witness_idle : (State.reset.fault = false ∧ State.reset.phase = .idle ∧ State.reset.reportMode = .active) ∧
    (let s := { State.reset with reportMode := .passive }
     s.fault = false ∧ s.phase = .idle ∧ s.reportMode = .passive) := by decide

/-- ReservedCodesSetTheFaultMark: no fault, and no reset next. -/
theorem witness_reserved : State.reset.fault = false ∧ (∀ rest, State.reset.inputs ≠ .reset :: rest) :=
  ⟨rfl, nofun⟩

/-- StartWhileBusySetsTheFaultMark. -/
theorem witness_busy : (receivingState .meas .wake []).fault = false ∧ (receivingState .meas .wake []).phase ≠ .idle := by
  decide

/-- FaultedBlockTakesNoStepButReset: the first two clauses, and the third. -/
theorem witness_faulted : let s := { State.reset with fault := true, inputs := [.start 0] }
    s.fault = true ∧ NoReset s ∧ step State.reset = .next State.reset ∧ State.reset.fault = false ∧ NoReset State.reset :=
  ⟨rfl, nofun, rfl, rfl, nofun⟩

/-- FaultedBlockTakesNoStepButReset, the last clause: a start of a reserved code, and one while busy. -/
theorem witness_fault_set : ∀ s ∈ [{ State.reset with inputs := [.start 6] },
    { receivingState .meas .wake [] with inputs := [.start 1] }],
    s.fault = false ∧ nextIs (step s) (fun t => t.fault) = true := by decide

/-- SensorModeSteersOnlyRead, second clause: REQUEST is started. -/
theorem witness_request_started : ∀ rest, nextEvent { State.reset with inputs := [.start 1] } ≠ .start 0 rest :=
  nofun

/-- AcceptedCommandStartsReceiving, for each command. -/
theorem witness_accepted_command : ∀ op ∈ [HostOp.read, .passive, .active, .sleep, .wake],
    let s := sendingState op (if op = .read then .meas else .ack) op.command [.ok]
    s.fault = false ∧ s.phase = .send ∧ s.txPort = some (cmdFrame s.cfg op.command) ∧ s.txAnswers = .ok :: [] ∧
    ¬ (s.expect = .ack ∧ s.cfg.ackExpected.get op.command = false) := by decide

/-- UnacknowledgedCommandCompletes, for Wake and for Sleep, EnterPassive, EnterActive and RequestRead alike. -/
theorem witness_unacknowledged : ∀ op ∈ [HostOp.read, .passive, .active, .sleep, .wake],
    let s := { sendingState op .ack op.command [.ok] with
      cfg := { Config.default with ackExpected := ⟨false, false, false, false, false⟩ } }
    s.fault = false ∧ s.phase = .send ∧ s.txPort = some (cmdFrame s.cfg op.command) ∧ s.txAnswers = .ok :: [] ∧
    s.expect = .ack ∧ s.cfg.ackExpected.get op.command = false := by decide

/-- FailedSendEndsWithSendFailed. -/
theorem witness_failed_send : let s := sendingState .sleep .ack .sleep [.sendFailed]
    s.fault = false ∧ s.phase = .send ∧ s.txPort = some (cmdFrame s.cfg .sleep) ∧ s.txAnswers = .sendFailed :: [] := by
  decide

/-- CommandNotAnsweredChangesNothing, each of the three ways. -/
theorem witness_not_answered : State.reset.fault = false ∧ State.reset.phase ≠ .send ∧
    (sendingState .sleep .ack .sleep [.ok]).txPort ≠ some (cmdFrame Config.default .wake) ∧
    (sendingState .sleep .ack .sleep []).txAnswers = [] := by decide

/-- SilentTransportHoldsTheBlock, both ways (95_test_vectors.md D23). -/
theorem witness_silent : (let s := sendingState .sleep .ack .sleep []
    s.fault = false ∧ s.inputs = [] ∧ s.phase = .send ∧ s.txAnswers = []) ∧
    (let s := receivingState .meas .wake []
    s.fault = false ∧ s.inputs = [] ∧ s.phase = .recv ∧ s.rxStream = []) := by decide

/-- MeasurementFrameDeliversItsFields and, with the acknowledgement awaited, UnexpectedFrameEndsWithIncorrectResponse. -/
theorem witness_held_measurement : ∀ e ∈ [Shape.meas, .ack],
    let s := heldState (measEncode fieldsIdx) e .enterPassive
    s.fault = false ∧ s.expect = e ∧ holds s (measFrame fieldsIdx (measSum fieldsIdx)) = true := by decide

/-- AwaitedAcknowledgementUpdatesTheMode, for each command. -/
theorem witness_held_acknowledgement : Config.default.WF ∧ ∀ c ∈ Command.acked,
    let s := heldState (ackFrame Config.default c) .ack c
    s.fault = false ∧ s.cfg = Config.default ∧ s.expect = .ack ∧ s.expCmd ≠ .requestRead ∧
    holds s (ackFrame s.cfg s.expCmd) = true := ⟨default_wf, by decide⟩

/-- WrongChecksumEndsWithChecksumError, both shapes. -/
theorem witness_wrong_checksum : (let s := heldState (measFrame fieldsIdx 0) .meas .wake
    s.fault = false ∧ (0 : Half) ≠ measSum fieldsIdx ∧ holds s (measFrame fieldsIdx 0) = true) ∧
    (let s := heldState (encode Config.default (.rxAck [0xE4, 0x00] 0x0178)) .ack .enterPassive
    s.fault = false ∧ ackPayloadFits s.cfg [0xE4, 0x00] ∧ (0x0178 : Half) ≠ ackSum s.cfg [0xE4, 0x00] ∧
    holds s (encode s.cfg (.rxAck [0xE4, 0x00] 0x0178)) = true) := by decide

/-- UnexpectedFrameEndsWithIncorrectResponse, second clause: another command's acknowledgement, and one during READ; each named
acknowledgement is met. -/
theorem witness_unexpected_ack : ∀ c ∈ Command.acked, ∀ e ∈ [Shape.meas, .ack],
    let p := Config.default.ackPayload.get c
    let s := heldState (ackFrame Config.default c) e (if c = .wake then .sleep else .wake)
    s.fault = false ∧ s.cfg = Config.default ∧ ackPayloadFits s.cfg p ∧
    holds s (encode s.cfg (.rxAck p (ackSum s.cfg p))) = true ∧ (s.expect = .meas ∨ p ≠ s.cfg.ackPayload.get s.expCmd) := by
  decide

/-- FrameStillOnTheLineJoinsTheStream. -/
theorem witness_on_the_line : State.reset.fault = false ∧ Instr.rxAckWake.port = .rx ∧
    holds State.reset (encode State.reset.cfg .rxAckWake) = false := by decide

/-- AcceptedFrameIsTheEncodingOfItsFields. -/
theorem witness_accepted_frame : let s := heldState (measEncode fieldsIdx) .meas .wake
    s.expect = .meas ∧ holds s (measFrame fieldsIdx (measSum fieldsIdx)) = true ∧
    nextIs (exec (.rxMeas fieldsIdx (measSum fieldsIdx)) s)
      (fun t => t.lastResult = .ok ∧ t.outFrame = some fieldsIdx) = true := by decide

/-- HuntFindsTheHeader: both hunt states, each byte of the clauses. -/
theorem witness_hunt : ∀ d ∈ [DecState.hunt0, .hunt1], ∀ b ∈ ([0x42, 0x4D, 0x41, 0x43] : List Byte),
    let s := { receivingState .meas .wake [.byte b] with decState := d }
    s.fault = false ∧ s.buf.wf = true ∧ s.phase = .recv ∧ s.rxStream = .byte b :: [] ∧ s.decState = d := by decide

/-- LengthBytesAreCheckedAtTheFourth: `dec_idx` 2 and 3, and at 3 both legal lengths and an illegal one next to each. -/
theorem witness_length_bytes : Config.default.WF ∧
    ∀ bytes ∈ ([[0x42, 0x4D], [0x42, 0x4D, 0x00]] : List (List Byte)), ∀ b ∈ ([0x1C, 0x1D, 0x04, 0x05] : List Byte),
    let s := decoderState .len bytes 0 [.byte b]
    s.fault = false ∧ s.cfg = Config.default ∧ s.buf.wf = true ∧ s.phase = .recv ∧ s.decState = .len ∧
    s.rxStream = .byte b :: [] ∧ s.decIdx = bytes.length := ⟨default_wf, by decide⟩

/-- BodyByteBeforeTheLastIsOnlyStored, at the first and at the last but one body byte. -/
theorem witness_body_byte : ∀ n ∈ [4, 6], let s := decoderState .body ((ackFrame Config.default .wake).take n) 4 [.byte 0xE4]
    s.fault = false ∧ s.buf.wf = true ∧ s.phase = .recv ∧ s.decState = .body ∧ s.decIdx < 32 ∧ s.decIdx + 1 < frameLen s ∧
    s.rxStream = .byte 0xE4 :: [] := by decide

/-- TransportErrorsEndTheReceivePhase, both errors (D19, D20). -/
theorem witness_transport_errors : ∀ a ∈ [RxAnswer.noResponse, .readFailed],
    let s := decoderState .len [0x42, 0x4D, 0x00] 0 [a]
    s.fault = false ∧ s.phase = .recv ∧ s.rxStream = a :: [] := by decide

/-- ReceivePhaseRoundTrip, and NoiseWithoutAHeaderIsDiscarded with the noise of D12. -/
theorem witness_receive_phase : let noise : List Byte := [0x00, 0xFF, 0x42, 0x13, 0x42]
    let s := receivingState .meas .wake (byteDraws (measEncode fieldsIdx) ++ [.noResponse])
    let s' := receivingState .meas .wake (byteDraws (noise ++ measEncode fieldsIdx) ++ [.noResponse])
    s.cfg.WF ∧ s.expect = .meas ∧ Receiving s (byteDraws (measEncode fieldsIdx) ++ [.noResponse]) ∧
    s'.cfg.WF ∧ s'.expect = .meas ∧ NoHeader noise ∧
    Receiving s' (byteDraws (noise ++ measEncode fieldsIdx) ++ [.noResponse]) :=
  ⟨default_wf, rfl, ⟨rfl, rfl, rfl, rfl, rfl⟩, default_wf, rfl, by simp [NoHeader, hdr0, hdr1], ⟨rfl, rfl, rfl, rfl, rfl⟩⟩

/-- SingleBitErrorsAreDetected, at the first and the last byte it covers. -/
theorem witness_single_bit : ∀ i ∈ [4, 31], ∀ k ∈ [0, 7],
    let s := receivingState .meas .wake (byteDraws (flipBit (measEncode fieldsIdx) i k) ++ [])
    s.cfg.WF ∧ 4 ≤ i ∧ i < 32 ∧ k < 8 ∧ Receiving s (byteDraws (flipBit (measEncode fieldsIdx) i k) ++ []) := by
  intro i hi k hk
  simp only [List.mem_cons, List.not_mem_nil, or_false] at hi hk
  exact ⟨default_wf, by omega, by omega, by omega, rfl, rfl, rfl, rfl, rfl⟩

/-- IllegalLengthEndsAfterFourBytes (D14). -/
theorem witness_illegal_length : let s := receivingState .meas .wake (byteDraws [0x42, 0x4D, 0x00, 0x1D] ++ [.byte 7])
    s.cfg.WF ∧ be16 0x00 0x1D ≠ measLen ∧ be16 0x00 0x1D ≠ s.cfg.ackLen ∧
    Receiving s (byteDraws [0x42, 0x4D, 0x00, 0x1D] ++ [.byte 7]) :=
  ⟨default_wf, by decide, by decide, rfl, rfl, rfl, rfl, rfl⟩

/-- ModeOperationsRunToTheirEnd, for each mode operation: the answer arrives after the send, and is held already. -/
theorem witness_mode_operation : Config.default.WF ∧ ∀ op ∈ [HostOp.passive, .active, .sleep, .wake],
    let s := { State.reset with inputs := [.start op.code, .tx .ok],
                                rxStream := byteDraws (ackFrame Config.default op.command) ++ [] }
    let s' := { s with inputs := [.start op.code], txAnswers := [.ok] }
    s.cfg = Config.default ∧ s.buf.wf = true ∧ op ≠ .read ∧ op ≠ .request ∧ s.cfg.ackExpected.get op.command = true ∧
    s.fault = false ∧ s.phase = .idle ∧ s.rxStream = byteDraws (ackFrame s.cfg op.command) ++ [] ∧
    s.inputs = .start op.code :: .tx .ok :: [] ∧ s.txAnswers = [] ∧
    s'.inputs = .start op.code :: [] ∧ s'.txAnswers = .ok :: [] := ⟨default_wf, by decide⟩

/-- MeasurementOperationsRunToTheirEnd: READ in either mode, and REQUEST; the answer arrives after the send, and is held
already. -/
theorem witness_measurement_operation : Config.default.WF ∧ ∀ op ∈ [HostOp.read, .request], ∀ m ∈ [ReportMode.active, .passive],
    let s := { State.reset with reportMode := m, inputs := [.start op.code, .tx .ok],
                                rxStream := byteDraws (measEncode fieldsIdx) ++ [] }
    let s' := { s with inputs := [.start op.code], txAnswers := [.ok] }
    s.cfg = Config.default ∧ s.buf.wf = true ∧ s.fault = false ∧ s.phase = .idle ∧
    s.rxStream = byteDraws (measEncode fieldsIdx) ++ [] ∧ s.reportMode = m ∧
    s.inputs = .start op.code :: .tx .ok :: [] ∧ s.txAnswers = [] ∧
    s'.inputs = .start op.code :: [] ∧ s'.txAnswers = .ok :: [] := ⟨default_wf, by decide⟩

/-- ResetMeetsTheInvariant: a choice of the parameters. -/
theorem witness_parameters : Config.default.WF ∧ silentWake.WF := ⟨default_wf, by unfold Config.WF; decide⟩

/-- The laws of every step with the invariant, no fault and no reset (StepKeepsTheInvariant, InvariantStepAlwaysHasANextState,
SensorModeChangesOnlyOnSuccess with a ReportMode that changes, OneDoneForEachOperation, PhasesFollowTheirOrder,
StreamIsPulledInOrder, ParametersNeverChange): the last byte of an acknowledgement. -/
theorem witness_report_mode_changes : let s := lastByteOf 64 0x424D0004E1000174 .passive .ack .enterPassive
    Inv s ∧ s.fault = false ∧ NoReset s ∧
    nextIs (step s) (fun t => t.reportMode ≠ s.reportMode ∧ t.doneLog = s.doneLog ++ [⟨.ok, none⟩] ∧ t.phase ≠ s.phase) = true :=
  ⟨witness_inv_last_byte, rfl, nofun, by decide⟩

/-- SensorModeChangesOnlyOnSuccess with a PowerMode that changes. -/
theorem witness_power_mode_changes : let s := lastByteOf 64 0x424D0004E4000177 .sleep .ack .sleep
    Inv s ∧ NoReset s ∧ nextIs (step s) (fun t => t.powerMode ≠ s.powerMode) = true :=
  ⟨⟨default_wf, by decide, by decide, by decide, fun _ => ⟨rfl, rfl⟩, by decide,
    fun _ => ⟨.inr rfl, by decide, by decide, ⟨by decide, by decide⟩, by decide⟩⟩, nofun, by decide⟩

/-- FailedOperationWritesOnlyItsResult: a send that fails. -/
theorem witness_failed_operation : let s := sendingState .passive .ack .enterPassive [.sendFailed]
    Inv s ∧ nextIs (step s) (fun t => t.doneLog = s.doneLog ++ [⟨.err .sendFailed, none⟩]) = true :=
  ⟨⟨default_wf, by decide, by decide, by decide, fun _ => ⟨rfl, rfl⟩, by decide, nofun⟩, by decide⟩

/-- FailedOperationWritesOnlyItsResult: a pull that fails. -/
theorem witness_failed_pull : let s := receivingState .meas .requestRead [.noResponse, .byte 1]
    Inv s ∧ nextIs (step s) (fun t => t.doneLog = s.doneLog ++ [⟨.err .noResponse, none⟩] ∧ t.rxStream = [.byte 1]) = true :=
  ⟨⟨default_wf, by decide, by decide, by decide, fun _ => rfl, nofun, fun _ => rfl⟩, by decide⟩

/-- OutFrameChangesOnlyOnSuccess: the last byte of a measurement. -/
theorem witness_out_frame_changes : let s := lastByteOf 256 onesWord .request .meas .wake
    Inv s ∧ NoReset s ∧ nextIs (step s) (fun t => t.outFrame ≠ s.outFrame) = true :=
  ⟨⟨default_wf, by decide, by decide, by decide, fun _ => rfl, by decide,
    fun _ => ⟨.inl rfl, by decide, by decide, ⟨by decide, by decide⟩, by decide⟩⟩, nofun, by decide⟩

/-- StaleBufferBytesAreNeverRead: buffers that differ above `dec_idx`, and steps from both. -/
theorem witness_stale_bytes : let s := lastByteOf 64 0x424D0004E1000174 .passive .ack .enterPassive
    let s' := { s with buf := s.buf.write 20 9 }
    Inv s ∧ Inv s' ∧ SameHeldBytes s s' ∧ s'.buf ≠ s.buf ∧ nextIs (step s) (fun _ => true) = true ∧
    nextIs (step s') (fun _ => true) = true := by
  refine ⟨witness_inv_last_byte, ⟨default_wf, by decide, by decide, by decide, fun _ => ⟨rfl, rfl⟩, by decide,
    fun _ => ⟨.inr rfl, by decide, by decide, ⟨by decide, by decide⟩, by decide⟩⟩, ⟨rfl, ?_⟩, by decide, by decide, by decide⟩
  intro a ha
  have h7 : (lastByteOf 64 0x424D0004E1000174 .passive .ack .enterPassive).decIdx = 7 := by decide
  exact read_write_other (by decide) (by omega)

/-- DeadRegistersAreNeverRead: two idle states that differ in the registers R36 leaves unspecified. -/
theorem witness_dead_registers : let s := { State.reset with inputs := [.start 0] }
    let s' := { s with op := .wake, expect := .ack, expCmd := .sleep, decState := .body, decIdx := 9, decLen := 77 }
    Inv s ∧ Inv s' ∧ liveOnly s = liveOnly s' ∧ s ≠ s' ∧ nextIs (step s) (fun _ => true) = true ∧
    nextIs (step s') (fun _ => true) = true :=
  ⟨⟨default_wf, by decide, by decide, by decide, nofun, by decide, nofun⟩,
   ⟨default_wf, by decide, by decide, by decide, nofun, by decide, nofun⟩, by decide, by decide, by decide, by decide⟩

/-- NoInstructionStoresToTheBuffer: a received frame, a command frame and a host operation answer next states from a buffer
that holds bytes. -/
theorem witness_buffer_kept :
    (let s := heldState (measEncode fieldsIdx) .meas .wake
     nextIs (exec (.rxMeas fieldsIdx (measSum fieldsIdx)) s) (fun t => t.buf.read 0 = 0x42) = true) ∧
    (let s := { sendingState .passive .ack .enterPassive [.ok] with buf := [(3, 9)] }
     nextIs (exec .cmdEnterPassive s) (fun t => t.buf.read 3 = 9) = true) ∧
    (let s := { State.reset with buf := [(3, 9)] }
     nextIs (exec .wake s) (fun t => t.buf.read 3 = 9) = true) := by decide

/-- StatusAndOutFrameViews: a state with each result, LAST_RESULT in STATUS by the numbers of R85. -/
theorem witness_last_result : ([.ok, .err .checksumError, .err .readFailed, .err .sendFailed, .err .incorrectResponse,
    .err .noResponse, .none] : List OpResult).map (fun r => State.status { State.reset with lastResult := r }) =
    [0x00, 0x10, 0x20, 0x30, 0x40, 0x50, 0x70] := by decide

/-- StatusAndOutFrameViews: a delivered frame, read at the last index and at the first beyond it, and none. -/
theorem witness_out_frame_view : (let s := { State.reset with outFrame := some fieldsIdx }
    s.outFrame = some fieldsIdx ∧ fieldsIdx.fields[12]? = some 12 ∧ readOutFrame s 12 = .next 12 ∧
    readOutFrame s 13 = .refused .noSuchField) ∧
    State.reset.outFrame = none ∧ readOutFrame State.reset 0 = .refused .outFrameInvalid :=
  ⟨⟨rfl, by decide, rfl, rfl⟩, rfl, rfl⟩

end Sys2Proof.Tests
end

/-! ## Received frames: decoding and encoding

A received frame decodes to an instruction whose encoding it is: the frame the decoder holds when it is complete
is the one its instruction validates. -/

namespace Sys2Proof

/-- Two bytes more of the first `n`. -/
theorem take_add_two {p : List Byte} {n : Nat} (h : n + 2 ≤ p.length) :
    p.take (n + 2) = p.take n ++ [p.getD n 0, p.getD (n + 1) 0] := by
  have hn : n < p.length := by omega
  have hn' : n + 1 < p.length := by omega
  rw [List.getD_eq_getElem _ _ hn, List.getD_eq_getElem _ _ hn', List.take_succ_eq_append_getElem hn',
    List.take_succ_eq_append_getElem hn, List.append_assoc]
  rfl

/-- The 16-bit values of byte pairs are those bytes. -/
theorem flatMap_pairs_eq_take {p : List Byte} (n : Nat) (h : 2 * n ≤ p.length) :
    (List.range n).flatMap (fun i => beBytes16 (be16 (p.getD (2 * i) 0) (p.getD (2 * i + 1) 0))) = p.take (2 * n) := by
  induction n with
  | zero => rfl
  | succ n ih =>
    rw [List.range_succ, List.flatMap_append, ih (by omega), Nat.mul_succ, take_add_two (by omega)]
    simp

/-- The bytes of the fields of 26 bytes are those bytes (30_encoding.md R76). -/
theorem fieldBytes_fieldsOf {p : List Byte} (h : p.length = 26) : fieldBytes (fieldsOf p) = p := by
  have pairs := flatMap_pairs_eq_take (p := p) 13 (by omega)
  rw [List.take_of_length_le (by omega)] at pairs
  simpa [fieldBytes, fieldsOf, List.flatMap_map] using pairs

/-- Every row an acknowledgement can decode to is a received frame with the acknowledgement's bytes (41_encoder.md R148). -/
theorem encode_decodeAck (cfg : Config) (payload : List Byte) (chk : Half) :
    (decodeAck cfg payload chk).port = .rx ∧
    encode cfg (decodeAck cfg payload chk) = rxHead cfg.ackLen payload ++ beBytes16 chk := by
  unfold decodeAck
  split
  case isTrue hchk =>
    split
    case h_1 c hfind =>
      have hmem := List.mem_of_find?_eq_some hfind
      have hpay : cfg.ackPayload.get c = payload := by simpa using List.find?_some hfind
      have hframe : ackFrame cfg c = rxHead cfg.ackLen payload ++ beBytes16 chk := by
        rw [ackFrame, hpay, sealFrame, ← hchk]
      cases c with
      | requestRead => simp [Command.acked] at hmem
      | _ => exact ⟨rfl, hframe⟩
    case h_2 => exact ⟨rfl, rfl⟩
  case isFalse => exact ⟨rfl, rfl⟩

/-- A received frame is its header, its length, its payload, and the two bytes of its checksum (30_encoding.md R72 to R74). -/
theorem rxHead_append_checksum {b2 b3 : Byte} {rest : List Byte} (hlen : rest.length = (be16 b2 b3).toNat)
    (htwo : 2 ≤ (be16 b2 b3).toNat) :
    let n := (be16 b2 b3).toNat - 2
    rxHead (be16 b2 b3) (rest.take n) ++ beBytes16 (be16 (rest.getD n 0) (rest.getD (n + 1) 0)) =
      hdr0 :: hdr1 :: b2 :: b3 :: rest := by
  intro n
  have hrest := take_add_two (p := rest) (n := n) (by omega)
  rw [List.take_of_length_le (by omega)] at hrest
  rw [beBytes16_be16, rxHead, List.append_assoc, ← hrest, hi8_be16, lo8_be16]
  rfl

/-- Bytes of the receive port that decode to an instruction are that instruction's encoding (30_encoding.md R72 to R75). -/
theorem encode_of_decodeRx {cfg : Config} (hc : cfg.WF) {bs : List Byte} {i : Instr} (h : decodeRx cfg bs = .ok i) :
    i.port = .rx ∧ encode cfg i = bs := by
  obtain ⟨hlo, -, -, -⟩ := hc
  have hmeas : measLen.toNat = 28 := rfl
  unfold decodeRx at h
  split at h
  case h_2 => cases h
  case h_1 b0 b1 b2 b3 rest =>
    split at h; · cases h
    split at h; · cases h
    split at h; · cases h
    split at h; · cases h
    rename_i hhdr hlegal hshort hlong
    obtain ⟨rfl, rfl⟩ : b0 = hdr0 ∧ b1 = hdr1 := by simpa using hhdr
    have hlen : rest.length = (be16 b2 b3).toNat := by omega
    split at h
    case isTrue hm =>
      cases h
      have hframe := rxHead_append_checksum hlen (by rw [hm]; decide)
      rw [hm] at hlen hframe ⊢
      refine ⟨rfl, ?_⟩
      rw [encode, measFrame, fieldBytes_fieldsOf (by rw [List.length_take]; omega)]
      exact hframe
    case isFalse hm =>
      cases h
      have hack : be16 b2 b3 = cfg.ackLen := by simpa [hm] using hlegal
      have hframe := rxHead_append_checksum hlen (hack ▸ hlo)
      rw [hack] at hframe ⊢
      obtain ⟨hport, henc⟩ := encode_decodeAck cfg _ _
      exact ⟨hport, henc.trans hframe⟩

end Sys2Proof

/-! ## What a send's answer and a pull's answer can do

What the answer to a send and the answer to a pull can do to the state, said once. -/

namespace Sys2Proof.Machine

/-- A complete frame is validated, whichever instruction it decodes to, if any (40_decoder.md R106; log 23). -/
theorem runFrame_complete {s : State} (hc : s.cfg.WF) (hf : s.fault = false) (h : frameComplete s = true) :
    runFrame s = validate s := by
  rw [runFrame, if_pos h, fetchFrame]
  cases hd : decode s.cfg .rx (heldFrame s) with
  | error r => rfl
  | ok i =>
    obtain ⟨hport, henc⟩ := encode_of_decodeRx hc hd
    exact exec_of_held hf hport (by simp [holds, h, henc])

/-- The state with other decoder registers and another buffer (10_state.md R27, R28, R50). -/
def withDecoder (d : DecState) (i : Nat) (l : Half) (m : Memory) (s : State) : State :=
  { s with decState := d, decIdx := i, decLen := l, buf := m }

/-- The decoder registers and the buffer written back as they are. -/
theorem withDecoder_self (s : State) : withDecoder s.decState s.decIdx s.decLen s.buf s = s := rfl

/-- What storing a byte writes. -/
theorem storeByte_writes_decoder {b : Byte} {s u : State} (h : storeByte b s = .next u) :
    u = withDecoder s.decState (s.decIdx + 1) s.decLen (s.buf.write s.decIdx b) s := (storeByte_eq_next h).2

/-- What LenCheck can do: the length is written, and then an illegal one ends the operation (R104). -/
theorem lenCheck_cases (s : State) : ∃ d,
    lenCheck s = withDecoder d s.decIdx (s.buf.read16 2) s.buf s ∨
    lenCheck s = raise .incorrectResponse (withDecoder d s.decIdx (s.buf.read16 2) s.buf s) := by
  unfold lenCheck
  dsimp only
  split
  · exact ⟨s.decState, .inr rfl⟩
  · exact ⟨.body, .inl rfl⟩

/-- What a pulled byte can do before the check of a complete frame: write the decoder's own registers and the buffer, and
perhaps end the operation with an error (R102 to R105). -/
theorem decByte_cases {b : Byte} {s u : State} (h : decByte b s = .next u) : ∃ d i l m,
    u = withDecoder d i l m s ∨ ∃ e, u = raise e (withDecoder d i l m s) := by
  unfold decByte at h
  split at h
  case h_1 =>
    cases h
    split
    · exact ⟨.hunt1, _, _, _, .inl rfl⟩
    · exact ⟨_, _, _, _, .inl (withDecoder_self s).symm⟩
  case h_2 =>
    cases h
    repeat' split
    · exact ⟨_, _, _, _, .inl rfl⟩
    · exact ⟨.hunt1, _, _, _, .inl rfl⟩
    · exact ⟨.hunt0, _, _, _, .inl rfl⟩
  case h_3 =>
    obtain ⟨v, hv, h⟩ := andThen_eq_next h
    obtain rfl := storeByte_writes_decoder hv
    cases h
    split
    · obtain ⟨d, hl | hl⟩ := lenCheck_cases (withDecoder s.decState (s.decIdx + 1) s.decLen (s.buf.write s.decIdx b) s)
      · exact ⟨_, _, _, _, .inl hl⟩
      · exact ⟨_, _, _, _, .inr ⟨_, hl⟩⟩
    · exact ⟨_, _, _, _, .inl rfl⟩
  case h_4 => exact ⟨_, _, _, _, .inl (storeByte_writes_decoder h)⟩

/-- What the answer to a pull can do before the check of a complete frame (R107). -/
theorem recvAnswer_cases {a : RxAnswer} {s u : State} (h : recvAnswer a s = .next u) : ∃ d i l m,
    u = withDecoder d i l m s ∨ ∃ e, u = raise e (withDecoder d i l m s) := by
  cases a with
  | byte b => exact decByte_cases h
  | noResponse =>
    cases h
    exact ⟨_, _, _, _, .inr ⟨.noResponse, congrArg _ (withDecoder_self s).symm⟩⟩
  | readFailed =>
    cases h
    exact ⟨_, _, _, _, .inr ⟨.readFailed, congrArg _ (withDecoder_self s).symm⟩⟩

/-- What Validate can do to the state: end the operation with an error, with a measurement, or with an acknowledgement
(40_decoder.md R106, 42_operations.md R162). -/
theorem validate_eq_next {s t : State} (h : validate s = .next t) :
    (∃ e, t = raise e s) ∨
    (s.expect = .meas ∧ ∃ f, t = complete (some f) { s with outFrame := some f }) ∨
    (s.expect = .ack ∧ t = complete none (modeUpdate s.expCmd s)) := by
  obtain ⟨-, hv⟩ | ⟨-, -, hv⟩ | ⟨-, -, hv⟩ := validate_cases s <;> rw [hv] at h <;> cases h
  · exact .inl ⟨_, rfl⟩
  · obtain ⟨he, -, hd⟩ | ⟨he, -, -, hd⟩ | ⟨-, hd⟩ := frameDone_cases (shapeOf s.decLen) s
    · exact .inr (.inl ⟨he, _, hd⟩)
    · exact .inr (.inr ⟨he, hd⟩)
    · exact .inl ⟨_, hd⟩

/-- What a step that takes the answer to a pull can do: write the decoder's registers and the buffer, and then perhaps end
the operation, with an error, with the measurement it expects, or with the acknowledgement it awaits. -/
theorem receive_cases {a : RxAnswer} {s t : State} (hc : s.cfg.WF) (hf : s.fault = false)
    (h : andThen (recvAnswer a s) runFrame = .next t) : ∃ d i l m, let v := withDecoder d i l m s
      t = v ∨ (∃ e, t = raise e v) ∨
      (s.expect = .meas ∧ ∃ f, t = complete (some f) { v with outFrame := some f }) ∨
      (s.expect = .ack ∧ t = complete none (modeUpdate s.expCmd v)) := by
  obtain ⟨u, hu, h⟩ := andThen_eq_next h
  obtain ⟨d, i, l, m, rfl | ⟨e, rfl⟩⟩ := recvAnswer_cases hu <;> refine ⟨d, i, l, m, ?_⟩
  · by_cases hcomplete : frameComplete (withDecoder d i l m s) = true
    · rw [runFrame_complete (s := withDecoder d i l m s) hc hf hcomplete] at h
      exact .inr (validate_eq_next h)
    · rw [runFrame_incomplete (by simpa using hcomplete)] at h
      cases h
      exact .inl rfl
  · rw [runFrame_incomplete (by simp [frameComplete])] at h
    cases h
    exact .inr (.inl ⟨e, rfl⟩)

/-- In a state of the invariant an acknowledgement is awaited for the command of the operation in progress (10_state.md
R26). -/
theorem Inv.expCmd_eq {s : State} (hi : Inv s) (hp : s.phase ≠ .idle) (he : s.expect = .ack) :
    s.expCmd = s.op.command := by
  have hop := hi.expects hp
  unfold ExpectsItsOp at hop
  split at hop
  · rw [he] at hop; cases hop
  · rw [he] at hop; cases hop
  all_goals exact hop.2

end Sys2Proof.Machine

/-! ## SensorMode

SensorMode changes only at the successful end of its own operations (10_state.md R24, R25). -/

namespace Sys2Proof.Machine

/-- Both halves of SensorMode are as before. -/
def KeepsMode (s t : State) : Prop := t.reportMode = s.reportMode ∧ t.powerMode = s.powerMode

/-- The operation in progress ends successfully with its ModeUpdate, SensorMode having been kept until then (42_operations.md
R164). -/
def EndsWithModeUpdate (s t : State) : Prop :=
  s.phase ≠ .idle ∧ ∃ u, KeepsMode s u ∧ u.doneLog = s.doneLog ∧ t = complete none (modeUpdate s.op.command u)

/-- ModeUpdate changes ReportMode only for PASSIVE and ACTIVE (R24). -/
theorem modeUpdate_reportMode_ne {o : HostOp} {s : State}
    (h : (modeUpdate o.command s).reportMode ≠ s.reportMode) :
    (o = .passive ∧ (modeUpdate o.command s).reportMode = .passive) ∨
    (o = .active ∧ (modeUpdate o.command s).reportMode = .active) := by
  cases o with
  | passive => exact .inl ⟨rfl, rfl⟩
  | active => exact .inr ⟨rfl, rfl⟩
  | _ => exact absurd rfl h

/-- ModeUpdate changes PowerMode only for SLEEP and WAKE (R25). -/
theorem modeUpdate_powerMode_ne {o : HostOp} {s : State}
    (h : (modeUpdate o.command s).powerMode ≠ s.powerMode) :
    (o = .sleep ∧ (modeUpdate o.command s).powerMode = .asleep) ∨
    (o = .wake ∧ (modeUpdate o.command s).powerMode = .awake) := by
  cases o with
  | sleep => exact .inl ⟨rfl, rfl⟩
  | wake => exact .inr ⟨rfl, rfl⟩
  | _ => exact absurd rfl h

/-- A start keeps SensorMode (42_operations.md R160, R170 to R175). -/
theorem start_keepsMode {s t : State} {code : BitVec 3} (h : exec (decodeHostOp code) s = .next t) : KeepsMode s t := by
  obtain ⟨-, rfl | ⟨-, ⟨-, rfl⟩ | ⟨-, rfl⟩ | ⟨o, -, -, -, rfl⟩⟩⟩ := start_cases h
  · exact ⟨rfl, rfl⟩
  · obtain ⟨-, hr⟩ | ⟨-, hr⟩ := readFirst_cases { s with op := .read } <;> rw [hr] <;> exact ⟨rfl, rfl⟩
  · exact ⟨rfl, rfl⟩
  · exact ⟨rfl, rfl⟩

/-- The answer to the operation's send keeps SensorMode, or ends the operation where no acknowledgement is expected (R163). -/
theorem sendStep_mode {s t : State} (hf : s.fault = false) (h : cmdStep s.op.command s = .next t) :
    KeepsMode s t ∨ EndsWithModeUpdate s t := by
  obtain ⟨a, rest, hp, -, -, hs⟩ | ⟨-, hs⟩ := cmdStep_cases (c := s.op.command) hf <;> rw [hs] at h <;> cases h
  · obtain ⟨-, hr⟩ | ⟨-, -, -, hr⟩ | ⟨-, -, hr⟩ := sendAnswered_cases s.op.command a { s with txAnswers := rest } <;>
      rw [hr]
    · exact .inl ⟨rfl, rfl⟩
    · refine .inr ⟨by simp [hp], _, ?_, ?_, rfl⟩
      exacts [⟨rfl, rfl⟩, rfl]
    · exact .inl ⟨rfl, rfl⟩
  · exact .inl ⟨rfl, rfl⟩

/-- The answer to a pull keeps SensorMode, or ends the operation with the acknowledgement of its own command (R162). -/
theorem receiveStep_mode {s t : State} {a : RxAnswer} {rest : List RxAnswer} (hi : Inv s) (hf : s.fault = false)
    (hp : s.phase = .recv) (h : andThen (recvAnswer a { s with rxStream := rest }) runFrame = .next t) :
    KeepsMode s t ∨ EndsWithModeUpdate s t := by
  have hbusy : s.phase ≠ .idle := by simp [hp]
  obtain ⟨d, i, l, m, rfl | ⟨e, rfl⟩ | ⟨-, f, rfl⟩ | ⟨he, rfl⟩⟩ :=
    receive_cases (s := { s with rxStream := rest }) hi.cfg_wf hf h
  · exact .inl ⟨rfl, rfl⟩
  · exact .inl ⟨rfl, rfl⟩
  · exact .inl ⟨rfl, rfl⟩
  · refine .inr ⟨hbusy, withDecoder d i l m { s with rxStream := rest }, ⟨rfl, rfl⟩, rfl, ?_⟩
    rw [← hi.expCmd_eq hbusy he]

/-- Reset apart, a step keeps SensorMode or ends the operation in progress with its ModeUpdate. -/
theorem step_mode {s t : State} (hi : Inv s) (hr : NoReset s) (h : step s = .next t) :
    KeepsMode s t ∨ EndsWithModeUpdate s t := by
  obtain ⟨-, hs⟩ | ⟨rest, hev, -⟩ | ⟨hev, hs⟩ | ⟨a, rest, hev, hs⟩ | ⟨code, rest, -, hs⟩ | ⟨a, rest, -, hs⟩ |
    ⟨a, rest, -, hs⟩ | ⟨rest, -, hs⟩ | ⟨-, hs⟩ := step_cases s
  · rw [hs] at h
    cases h
  · exact absurd hev (hr rest)
  · exact sendStep_mode (event_txAnswered hev).1 (hs ▸ h)
  · obtain ⟨hf, hp, -⟩ := event_rxAnswered hev
    exact receiveStep_mode hi hf hp (hs ▸ h)
  · exact .inl (start_keepsMode (s := { s with inputs := rest }) (hs ▸ h))
  all_goals
    rw [hs] at h
    cases h
    exact .inl ⟨rfl, rfl⟩

/-- Settles O45: a step that does not keep SensorMode ends the operation in progress with its ModeUpdate, and ModeUpdate
changes each half only for that half's two operations. -/
theorem sensorModeChangesOnlyOnSuccess : Obligations.SensorModeChangesOnlyOnSuccess := by
  intro s t hi hr h
  obtain ⟨hreport, hpower⟩ | ⟨hbusy, u, ⟨hreport, hpower⟩, hlog, rfl⟩ := step_mode hi hr h
  · exact ⟨fun hne => absurd hreport hne, fun hne => absurd hpower hne⟩
  · rw [← hreport, ← hpower, ← hlog]
    exact ⟨fun hne => ⟨modeUpdate_reportMode_ne hne, hbusy, rfl, rfl, by simp⟩,
      fun hne => ⟨modeUpdate_powerMode_ne hne, hbusy, rfl, rfl, by simp⟩⟩

end Sys2Proof.Machine

/-! ## The fault mark

With the fault mark set no step but a reset is left (10_state.md R32, 60_exceptions.md R221). -/

namespace Sys2Proof.Machine

/-- With the fault mark set and no reset next, no event is left (R32). -/
theorem nextEvent_faulted {s : State} (hf : s.fault = true) (hr : NoReset s) : nextEvent s = .stopped := by
  unfold nextEvent
  rw [if_pos hf]
  split
  case h_1 rest hin => exact absurd (by simp [nextEvent, hf, hin]) (hr rest)
  case h_2 => rfl

/-- With the fault mark set a step other than a reset is refused (R221). -/
theorem step_faulted {s : State} (hf : s.fault = true) (hr : NoReset s) : step s = .refused .faulted := by
  rw [step, nextEvent_faulted hf hr]

/-- A start of a reserved code sets the mark and nothing else (30_encoding.md R82). -/
theorem startReserved_eq {s : State} (hf : s.fault = false) : startReserved s = .next { s with fault := true } :=
  unlessFaulted_clear hf

/-- Settles O17: both codes mean `startReserved`, and a faulted block has no next event where the next input is no reset. -/
theorem reservedCodesSetTheFaultMark : Obligations.ReservedCodesSetTheFaultMark := by
  intro s hf
  refine ⟨startReserved_eq hf, startReserved_eq hf, fun hin => ?_⟩
  have noReset : NoReset { s with fault := true } := fun rest hev =>
    hin rest (event_reset (s := { s with fault := true }) hev)
  exact step_faulted rfl noReset

end Sys2Proof.Machine

/-! ## The sum of the checked bytes

The sum that the checksum of a received frame is compared with: its exact parts, its bound, and that the bound is
reached (40_decoder.md R110, R111). -/

namespace Sys2Proof

/-- The two bytes of a value below 256 sum to the value. -/
theorem hi8_add_lo8_of_lt {v : Half} (h : v.toNat < 256) : (hi8 v).toNat + (lo8 v).toNat = v.toNat := by
  simp only [hi8, lo8, BitVec.extractLsb'_toNat, Nat.shiftRight_eq_div_pow]
  omega

/-- The checked bytes sum to the header's 0x8F, the length and the payload's sum (30_encoding.md R72, R73). -/
theorem plainSum_rxHead {len : Half} (h : len.toNat < 256) (p : List Byte) :
    plainSum (rxHead len p) = 0x8F + len.toNat + plainSum p := by
  have hhdr : hdr0.toNat + hdr1.toNat = 0x8F := rfl
  have hlen := hi8_add_lo8_of_lt h
  simp only [rxHead, plainSum_append, plainSum_cons, plainSum_nil]
  omega

/-- The checked bytes sum to at most the header, the length, and 255 for each payload byte (40_decoder.md R111). -/
theorem plainSum_rxHead_le {len : Half} (h : len.toNat < 256) (p : List Byte) :
    plainSum (rxHead len p) ≤ 0x8F + len.toNat + p.length * 0xFF := by
  have hp := plainSum_le p
  rw [plainSum_rxHead h]
  omega

@[simp] theorem plainSum_replicate (n : Nat) (b : Byte) : plainSum (List.replicate n b) = n * b.toNat := by
  simp [plainSum]

/-- A payload of all ones reaches the bound. -/
theorem plainSum_rxHead_ones {len : Half} (h : len.toNat < 256) (n : Nat) :
    plainSum (rxHead len (List.replicate n 0xFF)) = 0x8F + len.toNat + n * 0xFF := by
  rw [plainSum_rxHead h, plainSum_replicate]
  rfl

/-- The measurement of all ones. -/
def onesFrame : OutputFrame := ⟨List.replicate 13 0xFFFF, rfl⟩

theorem fieldBytes_onesFrame : fieldBytes onesFrame = List.replicate 26 0xFF := rfl

/-- The length of an acknowledgement R110 admits fits one byte. -/
theorem Config.WF.ackLen_lt {cfg : Config} (hc : cfg.WF) : cfg.ackLen.toNat < 256 := by
  obtain ⟨-, hhi, -⟩ := hc
  omega

end Sys2Proof

namespace Sys2Proof.Machine

/-- A frame of a legal length fits the buffer (40_decoder.md R104, R110). -/
theorem frameLen_le_bufSize {s : State} (hc : s.cfg.WF) (hl : s.decLen = measLen ∨ s.decLen = s.cfg.ackLen) :
    frameLen s ≤ bufSize := by
  obtain ⟨-, hhi, -⟩ := hc
  have hmeas : measLen.toNat = 28 := rfl
  unfold frameLen bufSize
  obtain h | h := hl <;> rw [h] <;> omega

/-- Settles O6: the checked bytes sum to the header, the length and the payload; all ones reach the bound; and the at most
30 checked bytes of a frame that fits the buffer are too few to wrap. -/
theorem checksumOfAcceptedFramesNeverWraps : Obligations.ChecksumOfAcceptedFramesNeverWraps := by
  have hmeas : measLen.toNat < 256 := by decide
  have hdefault : (4 : Half).toNat < 256 := by decide
  refine ⟨fun f => ⟨?_, ?_⟩, ⟨onesFrame, ?_⟩, fun cfg p hc hp => ⟨?_, ?_⟩,
    fun cfg hc => ⟨List.replicate (cfg.ackLen.toNat - 2) 0xFF, List.length_replicate, ?_⟩,
    fun p hp => ?_, ⟨List.replicate 2 0xFF, rfl, ?_⟩, fun s hc hl => ?_⟩
  · have h := plainSum_rxHead_le hmeas (fieldBytes f)
    rwa [length_fieldBytes] at h
  · exact toNat_sum16_of_length (by simp)
  · rw [fieldBytes_onesFrame]
    exact plainSum_rxHead_ones hmeas 26
  · rw [← hp]
    exact plainSum_rxHead_le hc.ackLen_lt p
  · have hlt := hc.ackLen_lt
    exact toNat_sum16_of_length (by rw [length_rxHead, hp]; omega)
  · exact plainSum_rxHead_ones hc.ackLen_lt _
  · have h := plainSum_rxHead_le hdefault p
    rwa [hp] at h
  · exact plainSum_rxHead_ones hdefault 2
  · have hfit : frameLen s ≤ 32 := frameLen_le_bufSize hc hl
    exact toNat_sum16_of_length (by rw [length_readBytes]; omega)

end Sys2Proof.Machine

/-! ## A complete frame in the buffer

What the decoder reads back from the buffer when it holds a complete frame: the checked bytes, the checksum, the payload
(40_decoder.md R106, R108). -/

namespace Sys2Proof.Machine

/-- Two bytes of the buffer that are a value's bytes assemble to the value. -/
theorem read16_of_readBytes {m : Memory} {a : Nat} {v : Half} (h : m.readBytes a 2 = beBytes16 v) : m.read16 a = v := by
  obtain ⟨hhi, hlo⟩ : m.read a = hi8 v ∧ m.read (a + 1) = lo8 v := by
    simpa [Memory.readBytes, beBytes16, List.range_succ] using h
  rw [Memory.read16, hhi, hlo, be16_hi8_lo8]

/-- A held frame is in the buffer part by part: the checked bytes and the payload among them, then the checksum. -/
theorem holds_parts {s : State} {len chk : Half} {p : List Byte} (h : holds s (rxHead len p ++ beBytes16 chk) = true) :
    s.buf.readBytes 0 (frameLen s - 2) = rxHead len p ∧ s.buf.read16 (frameLen s - 2) = chk ∧
    s.buf.readBytes 4 p.length = p := by
  have hlen : frameLen s - 2 = 4 + p.length ∧ frameLen s = 4 + p.length + 2 := by
    have := holds_length h
    simp only [List.length_append, length_rxHead, length_beBytes16] at this
    omega
  obtain ⟨-, -, -, hheld⟩ := holds_iff.1 h
  rw [heldFrame, hlen.2, readBytes_add] at hheld
  obtain ⟨hchecked, hchk⟩ := List.append_inj hheld (by simp)
  have hsplit := hchecked
  rw [readBytes_add, rxHead] at hsplit
  obtain ⟨-, hpayload⟩ := List.append_inj hsplit (by simp)
  rw [hlen.1]
  exact ⟨hchecked, read16_of_readBytes (by simpa using hchk), by simpa using hpayload⟩

/-- A held frame with its right checksum goes on to FrameDone (R106). -/
theorem validate_of_right_checksum {s : State} {len : Half} {p : List Byte} (hfit : frameLen s ≤ bufSize)
    (h : holds s (rxHead len p ++ beBytes16 (sum16 (rxHead len p))) = true) :
    validate s = .next (frameDone (shapeOf s.decLen) s) := by
  obtain ⟨hchecked, hchk, -⟩ := holds_parts h
  obtain ⟨hlong, -⟩ | ⟨-, hne, -⟩ | ⟨-, -, hv⟩ := validate_cases s
  · omega
  · exact absurd (by rw [hchecked, hchk]) hne
  · exact hv

/-- A held measurement frame has the measurement's length (R104). -/
theorem holds_measFrame_decLen {s : State} {f : OutputFrame} {chk : Half} (h : holds s (measFrame f chk) = true) :
    s.decLen = measLen := by
  have hlen := holds_length h
  rw [length_measFrame, frameLen] at hlen
  have hmeas : measLen.toNat = 28 := rfl
  exact BitVec.eq_of_toNat_eq (by omega)

/-- The fields the buffer holds are those of its 26 payload bytes (R108, 30_encoding.md R76). -/
theorem measFields_eq_fieldsOf (m : Memory) : measFields m = fieldsOf (m.readBytes 4 26) := by
  simp only [measFields, fieldsOf, OutputFrame.mk.injEq]
  refine List.map_congr_left fun i hi => ?_
  have hi : i < 13 := List.mem_range.1 hi
  have read : ∀ j < 26, (m.readBytes 4 26).getD j 0 = m.read (4 + j) := fun j hj => by
    rw [List.getD_eq_getElem?_getD, getElem?_readBytes, if_pos hj, Option.getD_some]
  rw [Memory.read16, read _ (by omega), read _ (by omega), Nat.add_assoc]

/-- The fields read back from a held measurement frame are its own, whatever its checksum (R108). -/
theorem holds_measFields {s : State} {f : OutputFrame} {chk : Half} (h : holds s (measFrame f chk) = true) :
    measFields s.buf = f := by
  obtain ⟨-, -, hpayload⟩ := holds_parts h
  rw [length_fieldBytes] at hpayload
  rw [measFields_eq_fieldsOf, hpayload, fieldsOf_fieldBytes]

/-- Settles O26: the held frame passes Validate, FrameDone accepts its shape, and the fields read back are `f`. -/
theorem measurementFrameDeliversItsFields : Obligations.MeasurementFrameDeliversItsFields := by
  intro s f hf he h
  have hlen := holds_measFrame_decLen h
  have hfit : frameLen s ≤ bufSize := by rw [frameLen, hlen]; decide
  have hdone : frameDone (shapeOf s.decLen) s =
      complete (some (measFields s.buf)) { s with outFrame := some (measFields s.buf) } := by
    simp [frameDone, he, hlen, shapeOf]
  calc exec (.rxMeas f (measSum f)) s
    _ = validate s := exec_of_held hf rfl h
    _ = .next (frameDone (shapeOf s.decLen) s) := validate_of_right_checksum hfit h
    _ = .next { endedOk (some f) s with outFrame := some f } := by rw [hdone, holds_measFields h]; rfl

end Sys2Proof.Machine

/-! ## The hunt

A pulled byte in HUNT0 and HUNT1 (40_decoder.md R102). -/

namespace Sys2Proof.Machine

/-- The first header byte is seen. -/
theorem decByte_hunt0_hdr0 {s : State} (hd : s.decState = .hunt0) :
    decByte hdr0 s = .next { s with decState := .hunt1 } := by simp [decByte, hd]

/-- Any other byte is discarded. -/
theorem decByte_hunt0_other {s : State} {b : Byte} (hd : s.decState = .hunt0) (hb : b ≠ hdr0) :
    decByte b s = .next s := by simp [decByte, hd, hb]

/-- The second header byte ends the hunt. -/
theorem decByte_hunt1_hdr1 {s : State} (hd : s.decState = .hunt1) :
    decByte hdr1 s = .next (takeHeader s) := by simp [decByte, hd]

/-- The first header byte again may still be followed by the second. -/
theorem decByte_hunt1_hdr0 {s : State} (hd : s.decState = .hunt1) :
    decByte hdr0 s = .next { s with decState := .hunt1 } := by
  have hne : hdr0 ≠ hdr1 := by decide
  simp [decByte, hd, hne]

/-- Any other byte starts the hunt again. -/
theorem decByte_hunt1_other {s : State} {b : Byte} (hd : s.decState = .hunt1) (hb1 : b ≠ hdr1) (hb0 : b ≠ hdr0) :
    decByte b s = .next { s with decState := .hunt0 } := by simp [decByte, hd, hb1, hb0]

/-- A pulled byte that does not leave the decoder in BODY completes no frame: the step is DecByte. -/
theorem step_byte {s t : State} {b : Byte} {rest : List RxAnswer} (hf : s.fault = false) (hp : s.phase = .recv)
    (hr : s.rxStream = .byte b :: rest) (h : decByte b { s with rxStream := rest } = .next t)
    (hd : t.decState ≠ .body) : step s = .next t := by
  rw [step_recv hf hp hr, recvAnswer, h, andThen_next, runFrame_incomplete (by simp [frameComplete, hd])]

/-- The buffer with the header taken: 42 4D in its first two bytes, every other byte as before (R102). -/
theorem read_takeHeader_buf {s : State} (hm : s.buf.wf = true) :
    (takeHeader s).buf.read 0 = hdr0 ∧ (takeHeader s).buf.read 1 = hdr1 ∧
    ∀ a, a ≠ 0 → a ≠ 1 → (takeHeader s).buf.read a = s.buf.read a := by
  have hm0 : (s.buf.write 0 hdr0).wf = true := write_keeps_wf hm (by decide)
  rw [takeHeader_buf]
  refine ⟨?_, read_write_same hm0, fun a h0 h1 => ?_⟩
  · rw [read_write_other hm0 (by decide), read_write_same hm]
  · rw [read_write_other hm0 h1, read_write_other hm h0]

/-- Settles O32: DecByte's branch for each state of the hunt and each byte, none of which reaches BODY. -/
theorem huntFindsTheHeader : Obligations.HuntFindsTheHeader := by
  intro s b rest hf hm hp hr
  refine ⟨fun hd hb => ?_, fun hd hb => ?_, fun hd hb => ?_, fun hd hb => ?_, fun hd hb1 hb0 => ?_⟩
  · subst hb
    exact step_byte hf hp hr (decByte_hunt0_hdr0 hd) nofun
  · exact step_byte hf hp hr (decByte_hunt0_other hd hb) (by simp [hd])
  · subst hb
    exact ⟨_, step_byte hf hp hr (decByte_hunt1_hdr1 hd) nofun, read_takeHeader_buf hm⟩
  · subst hb
    exact step_byte hf hp hr (decByte_hunt1_hdr0 hd) nofun
  · exact step_byte hf hp hr (decByte_hunt1_other hd hb1 hb0) nofun

end Sys2Proof.Machine

/-! ## The command frame

The layout of an encoded command and the exact sum of its checked bytes (41_encoder.md R140, R147). -/

namespace Sys2Proof

/-- The frame is the five checked bytes and the two bytes of their checksum (R140). -/
theorem cmdFrame_eq (cfg : Config) (c : Command) :
    cmdFrame cfg c = cmdHead (cfg.cmdTable.get c).opc (cfg.cmdTable.get c).data ++
      beBytes16 (sum16 (cmdHead (cfg.cmdTable.get c).opc (cfg.cmdTable.get c).data)) := rfl

/-- Five checked bytes never wrap: their checksum is the header's 0x8F and the three bytes that follow (R140). -/
theorem toNat_sum16_cmdHead (opc : Byte) (data : Half) :
    (sum16 (cmdHead opc data)).toNat = 0x42 + 0x4D + opc.toNat + (hi8 data).toNat + (lo8 data).toNat := by
  have hhdr : hdr0.toNat + hdr1.toNat = 0x42 + 0x4D := rfl
  have hshort : (cmdHead opc data).length ≤ 257 := by simp [cmdHead]
  rw [toNat_sum16_of_length hshort, cmdHead]
  simp only [plainSum_cons, plainSum_nil]
  omega

/-- Settles O4: the layout is Encode's own; the checksum's bytes assemble to it; and it is the exact sum of a header of
0x8F and three bytes, so at most 0x8F + 3 * 0xFF. -/
theorem commandFrameLayout : Obligations.CommandFrameLayout := by
  intro cfg c e chk
  have hsum : chk.toNat = 0x42 + 0x4D + e.opc.toNat + (hi8 e.data).toNat + (lo8 e.data).toNat :=
    toNat_sum16_cmdHead e.opc e.data
  have hbound : chk.toNat ≤ 0x38C := by
    have hopc := e.opc.isLt
    have hhi := (hi8 e.data).isLt
    have hlo := (lo8 e.data).isLt
    omega
  exact ⟨cmdFrame_eq cfg c, be16_hi8_lo8 chk, hbound, hsum⟩

end Sys2Proof

/-! ## SensorMode is read by READ alone

Two states that differ only in SensorMode take the same step, SensorMode apart, unless the step starts READ: shown for each
operation the step is made of (42_operations.md R176). -/

namespace Sys2Proof

/-- What decodes on the receive port is a received frame, under any parameters (30_encoding.md R72, R73). -/
theorem port_of_decodeRx {cfg : Config} {bs : List Byte} {i : Instr} (h : decodeRx cfg bs = .ok i) : i.port = .rx := by
  unfold decodeRx at h
  split at h
  case h_2 => cases h
  case h_1 =>
    split at h; · cases h
    split at h; · cases h
    split at h; · cases h
    split at h; · cases h
    split at h
    case isTrue => cases h; rfl
    case isFalse => cases h; exact (encode_decodeAck cfg _ _).1

end Sys2Proof

namespace Sys2Proof.Machine

/-- The frame the decoder holds runs as a received frame, if at all. -/
theorem port_of_fetchFrame {s : State} {i : Instr} (h : fetchFrame s = some i) : i.port = .rx := by
  unfold fetchFrame at h
  split at h
  case h_1 hd => cases h; exact port_of_decodeRx hd
  case h_2 => cases h

/-- The state with another SensorMode (10_state.md R23). -/
def withModes (r : ReportMode) (p : PowerMode) (s : State) : State := { s with reportMode := r, powerMode := p }

/-- A meaning that SensorMode does not steer: another SensorMode changes nothing of its outcome but SensorMode itself. -/
def ModeBlind (k : State → Out) : Prop := ∀ r p s, withoutModes (k (withModes r p s)) = withoutModes (k s)

/-! Everything else is as it was. -/

@[simp] theorem withModes_expect (r : ReportMode) (p : PowerMode) (s : State) : (withModes r p s).expect = s.expect := rfl
@[simp] theorem withModes_decState (r : ReportMode) (p : PowerMode) (s : State) :
    (withModes r p s).decState = s.decState := rfl
@[simp] theorem withModes_txAnswers (r : ReportMode) (p : PowerMode) (s : State) :
    (withModes r p s).txAnswers = s.txAnswers := rfl

/-- Which agent moves next is not SensorMode's to say. -/
@[simp] theorem nextEvent_withModes (r : ReportMode) (p : PowerMode) (s : State) :
    nextEvent (withModes r p s) = nextEvent s := rfl

@[simp] theorem fetchFrame_withModes (r : ReportMode) (p : PowerMode) (s : State) :
    fetchFrame (withModes r p s) = fetchFrame s := rfl

/-! ### What is built of meanings that SensorMode does not steer -/

/-- A meaning with two branches; that its condition does not read SensorMode is seen by evaluation. -/
theorem ModeBlind.ite {c : State → Prop} [∀ s, Decidable (c s)] {j k : State → Out} (hj : ModeBlind j) (hk : ModeBlind k)
    (hc : ∀ r p s, c (withModes r p s) = c s := by intros; rfl) : ModeBlind fun s => if c s then j s else k s := by
  intro r p s
  have hcond := hc r p s
  by_cases h : c s
  · simpa only [hcond, h, if_true] using hj r p s
  · simpa only [hcond, h, if_false] using hk r p s

/-- A next state with two branches. -/
theorem ModeBlind.next_ite {c : State → Prop} [∀ s, Decidable (c s)] {f g : State → State}
    (hf : ModeBlind fun s => .next (f s)) (hg : ModeBlind fun s => .next (g s))
    (hc : ∀ r p s, c (withModes r p s) = c s := by intros; rfl) : ModeBlind fun s => .next (if c s then f s else g s) := by
  simpa only [apply_ite Host.Outcome.next] using ModeBlind.ite hf hg hc

/-- Outcomes that differ in SensorMode only go on, through a meaning it does not steer, to such outcomes. -/
theorem ModeBlind.andThen_congr {k : State → Out} (hk : ModeBlind k) {o o' : Out} (h : withoutModes o = withoutModes o') :
    withoutModes (andThen o k) = withoutModes (andThen o' k) := by
  have through : ∀ o : Out, withoutModes (andThen o k) = withoutModes (andThen (withoutModes o) k) := by
    intro o
    cases o with
    | next s => exact (hk .active .awake s).symm
    | fault r => rfl
    | refused r => rfl
  rw [through o, through o', h]

/-- One meaning after another. -/
theorem ModeBlind.andThen {j k : State → Out} (hj : ModeBlind j) (hk : ModeBlind k) :
    ModeBlind fun s => Machine.andThen (j s) k := fun r p s => hk.andThen_congr (hj r p s)

/-- A meaning under the guard of the fault mark. -/
theorem ModeBlind.unlessFaulted {k : State → Out} (hk : ModeBlind k) : ModeBlind fun s => Machine.unlessFaulted s (k s) :=
  .ite (c := fun s => s.fault = true) (fun _ _ _ => rfl) hk

/-! ### The decoder and the end of a frame -/

/-- ModeUpdate writes SensorMode and reads nothing (42_operations.md R164). -/
theorem complete_modeUpdate_blind (r : Option OutputFrame) (c : Command) :
    ModeBlind fun s => .next (complete r (modeUpdate c s)) := by
  intro _ _ _
  cases c <;> rfl

theorem storeByte_blind (b : Byte) : ModeBlind (storeByte b) :=
  .ite (fun _ _ _ => rfl) (fun _ _ _ => rfl)

theorem lenCheck_blind : ModeBlind fun s => .next (lenCheck s) := by
  unfold lenCheck
  exact .next_ite (fun _ _ _ => rfl) (fun _ _ _ => rfl)

/-- DecByte (40_decoder.md R102 to R105). -/
theorem decByte_blind (b : Byte) : ModeBlind (decByte b) := by
  intro r p s
  dsimp only [decByte, withModes_decState]
  cases s.decState with
  | hunt0 => dsimp only; split_ifs <;> rfl
  | hunt1 => dsimp only; split_ifs <;> rfl
  | len =>
    have check : ModeBlind fun t => .next (if t.decIdx = 4 then lenCheck t else t) :=
      .next_ite lenCheck_blind (fun _ _ _ => rfl)
    exact check.andThen_congr (storeByte_blind b r p s)
  | body => exact storeByte_blind b r p s

theorem recvAnswer_blind (a : RxAnswer) : ModeBlind (recvAnswer a) := by
  cases a with
  | byte b => exact decByte_blind b
  | noResponse => exact fun _ _ _ => rfl
  | readFailed => exact fun _ _ _ => rfl

/-- FrameDone: its acknowledgement writes SensorMode and does not read it (42_operations.md R162, R164). -/
theorem frameDone_blind (kind : Shape) : ModeBlind fun s => .next (frameDone kind s) := by
  intro r p s
  dsimp only [frameDone, withModes_expect]
  cases s.expect with
  | meas => dsimp only; split_ifs <;> rfl
  | ack =>
    have acknowledged : ModeBlind fun t => .next (if ackPayload t.cfg t.buf ≠ t.cfg.ackPayload.get t.expCmd then
        raise .incorrectResponse t else complete none (modeUpdate t.expCmd t)) :=
      .next_ite (fun _ _ _ => rfl) fun r p t => complete_modeUpdate_blind none t.expCmd r p t
    dsimp only
    split
    · rfl
    · exact acknowledged r p s

theorem validate_blind : ModeBlind validate :=
  .ite (fun _ _ _ => rfl) (.ite (fun _ _ _ => rfl) fun r p s => frameDone_blind (shapeOf s.decLen) r p s)

/-- A received-frame instruction, whichever it is (R108, R109). -/
theorem exec_rx_blind {i : Instr} (hi : i.port = .rx) : ModeBlind (exec i) := by
  intro r p s
  have blind : ∀ bytes, ModeBlind (rxFrame bytes) := fun bytes =>
    .unlessFaulted (.ite validate_blind (fun _ _ _ => rfl))
  rw [exec_rx hi, exec_rx hi]
  exact blind (encode s.cfg i) r p s

/-- A complete frame is run as a received frame, or validated (log 23). -/
theorem runFrame_blind : ModeBlind runFrame := by
  refine .ite (fun r p s => ?_) (fun _ _ _ => rfl)
  rw [fetchFrame_withModes]
  cases hi : fetchFrame s with
  | none => exact validate_blind r p s
  | some i => exact exec_rx_blind (port_of_fetchFrame hi) r p s

/-! ### The sequencer -/

theorem sendAnswered_blind (c : Command) (a : TxAnswer) : ModeBlind fun s => .next (sendAnswered c a s) := by
  cases a with
  | sendFailed => exact fun _ _ _ => rfl
  | ok =>
    refine .next_ite (fun r p s => ?_) (fun _ _ _ => rfl)
    exact complete_modeUpdate_blind none c r p
      { s with txPort := none, txLog := s.txLog ++ [(cmdFrame s.cfg c, .ok)] }

theorem cmdStep_blind (c : Command) : ModeBlind (cmdStep c) := by
  refine .unlessFaulted (.ite (fun r p s => ?_) (fun _ _ _ => rfl))
  rw [withModes_txAnswers]
  cases s.txAnswers with
  | nil => rfl
  | cons a rest => exact sendAnswered_blind c a r p { s with txAnswers := rest }

/-- A start, where its operation's first step is not steered (R160). -/
theorem startOp_blind (o : HostOp) {first : State → State} (hfirst : ModeBlind fun s => .next (first s)) :
    ModeBlind (startOp o first) :=
  .unlessFaulted (.next_ite (fun _ _ _ => rfl) fun r p s => hfirst r p { s with op := o })

/-- READ's first step by a given ReportMode (R170). -/
def readFirstIn (m : ReportMode) (s : State) : State :=
  if m = .active then recvStart { s with expect := .meas } else sendPhase .requestRead { s with expect := .meas }

/-- READ goes by the state's own ReportMode. -/
theorem execRead_eq (s : State) : execRead s = startOp .read (readFirstIn s.reportMode) s := rfl

/-- With ReportMode as it is, READ is not steered by PowerMode. -/
theorem execRead_powerMode (p : PowerMode) (s : State) :
    withoutModes (execRead (withModes s.reportMode p s)) = withoutModes (execRead s) := by
  have blind : ModeBlind (startOp .read (readFirstIn s.reportMode)) :=
    startOp_blind .read (.next_ite (fun _ _ _ => rfl) (fun _ _ _ => rfl))
  rw [execRead_eq, execRead_eq]
  exact blind s.reportMode p s

/-- Every start but READ's is not steered by SensorMode (R171 to R175, R82). -/
theorem exec_start_blind {code : BitVec 3} (hcode : code ≠ 0) : ModeBlind (exec (decodeHostOp code)) := by
  have mode : ∀ o c, ModeBlind (startOp o (modeFirst c)) := fun o _ => startOp_blind o (fun _ _ _ => rfl)
  have reserved : ModeBlind startReserved := .unlessFaulted (fun _ _ _ => rfl)
  intro r p s
  rw [exec_start_eq, exec_start_eq, if_neg hcode, if_neg hcode]
  repeat' split
  · exact startOp_blind .request (fun _ _ _ => rfl) r p s
  · exact mode _ _ r p s
  · exact mode _ _ r p s
  · exact mode _ _ r p s
  · exact mode _ _ r p s
  · exact reserved r p s

/-- A start, with another SensorMode that keeps ReportMode where the code is READ's. -/
theorem exec_start_withModes {code : BitVec 3} {r : ReportMode} {s : State} (p : PowerMode)
    (h : code = 0 → r = s.reportMode) :
    withoutModes (exec (decodeHostOp code) (withModes r p s)) = withoutModes (exec (decodeHostOp code) s) := by
  by_cases hcode : code = 0
  · obtain rfl := h hcode
    obtain rfl := hcode
    exact execRead_powerMode p s
  · exact exec_start_blind hcode r p s

/-- A step, with another SensorMode that keeps ReportMode where the step starts READ. -/
theorem step_withModes {r : ReportMode} {s : State} (p : PowerMode)
    (h : ∀ rest, nextEvent s = .start 0 rest → r = s.reportMode) :
    withoutModes (step (withModes r p s)) = withoutModes (step s) := by
  unfold step
  rw [nextEvent_withModes]
  cases hev : nextEvent s with
  | txAnswered =>
    rw [exec_cmdInstr, exec_cmdInstr]
    exact cmdStep_blind s.op.command r p s
  | rxAnswered a rest => exact (recvAnswer_blind a).andThen runFrame_blind r p { s with rxStream := rest }
  | start code rest =>
    refine exec_start_withModes (s := { s with inputs := rest }) p fun hcode => ?_
    exact h rest (hcode ▸ hev)
  | _ => rfl

/-- Settles O20: PowerMode alone is another SensorMode with the same ReportMode, and ReportMode alone one with any, which
only READ's start forbids. -/
theorem sensorModeSteersOnlyRead : Obligations.SensorModeSteersOnlyRead :=
  ⟨fun s p => step_withModes (r := s.reportMode) p fun _ _ => rfl,
    fun s _ hread => step_withModes s.powerMode fun rest hev => absurd hev (hread rest)⟩

end Sys2Proof.Machine

/-! ## The errors of a receive phase

A wrong checksum, judged before the shape and the payload, and the transport's two errors (60_exceptions.md R202, R203,
R206). -/

namespace Sys2Proof.Machine

/-- A held frame with a wrong checksum ends in Validate, before FrameDone (R106). -/
theorem validate_of_wrong_checksum {s : State} {len chk : Half} {p : List Byte} (hfit : frameLen s ≤ bufSize)
    (hchk : chk ≠ sum16 (rxHead len p)) (h : holds s (rxHead len p ++ beBytes16 chk) = true) :
    validate s = .next (raise .checksumError s) := by
  obtain ⟨hchecked, hread, -⟩ := holds_parts h
  obtain ⟨hlong, -⟩ | ⟨-, -, hv⟩ | ⟨-, heq, -⟩ := validate_cases s
  · omega
  · exact hv
  · exact absurd (by rw [← hread, ← heq, hchecked]) hchk

/-- A received-frame instruction with at most 26 payload bytes and a wrong checksum, held by the decoder, ends the operation
with ChecksumError. -/
theorem exec_of_wrong_checksum {s : State} {i : Instr} {len chk : Half} {p : List Byte} (hf : s.fault = false)
    (hport : i.port = .rx) (henc : encode s.cfg i = rxHead len p ++ beBytes16 chk) (hp : p.length ≤ 26)
    (hchk : chk ≠ sum16 (rxHead len p)) (h : holds s (encode s.cfg i) = true) :
    exec i s = .next (endedBy .checksumError s) := by
  have hfit : frameLen s ≤ bufSize := by
    rw [← holds_length h, henc, List.length_append, length_rxHead, length_beBytes16, bufSize]
    omega
  rw [exec_of_held hf hport h]
  rw [henc] at h
  exact validate_of_wrong_checksum hfit hchk h

/-- Settles O28: either shape is its checked bytes and a checksum, and its payload fits the buffer: 26 bytes of fields, or
the `ACK_LEN - 2` bytes that R110 bounds. -/
theorem wrongChecksumEndsWithChecksumError : Obligations.WrongChecksumEndsWithChecksumError := by
  refine ⟨fun s f chk hf hchk h => ?_, fun s p chk hf hc hp hchk h => ?_⟩
  · exact exec_of_wrong_checksum hf rfl rfl (length_fieldBytes f).le hchk h
  · obtain ⟨-, hhi, -⟩ := hc
    have hshort : p.length ≤ 26 := by rw [hp]; omega
    exact exec_of_wrong_checksum hf rfl rfl hshort hchk h

/-- An answer to a pull that ends the operation with an error completes no frame: the step is RecvAnswer (R107). -/
theorem step_recv_raise {s u : State} {a : RxAnswer} {rest : List RxAnswer} {e : ErrorKind} (hf : s.fault = false)
    (hp : s.phase = .recv) (hr : s.rxStream = a :: rest)
    (h : recvAnswer a { s with rxStream := rest } = .next (raise e u)) : step s = .next (raise e u) := by
  rw [step_recv hf hp hr, h, andThen_next, runFrame_incomplete (by simp [frameComplete])]

/-- Settles O35: RecvAnswer raises each transport error without a look at the decoder. -/
theorem transportErrorsEndTheReceivePhase : Obligations.TransportErrorsEndTheReceivePhase :=
  fun _ _ hf hp => ⟨fun hr => step_recv_raise hf hp hr rfl, fun hr => step_recv_raise hf hp hr rfl⟩

end Sys2Proof.Machine

/-! ## Reset

The values reset gives, whether it makes the machine or meets it during a run (70_reset_and_hazards.md R230). -/

namespace Sys2Proof.Machine

/-- The elements R36 specifies have their reset values under the parameters `cfg`. -/
def HasResetValues (cfg : Config) (s : State) : Prop :=
  s.phase = .idle ∧ s.reportMode = cfg.initReportMode ∧ s.powerMode = cfg.initPowerMode ∧ s.decState = .hunt0 ∧
  s.decIdx = 0 ∧ s.outValid = false ∧ s.lastResult = .none ∧ s.fault = false

theorem resetWith_hasResetValues (cfg : Config) : HasResetValues cfg (State.resetWith cfg) :=
  ⟨rfl, rfl, rfl, rfl, rfl, rfl, rfl, rfl⟩

/-- What a reset leaves with the transport and the histories is none of the elements R36 specifies. -/
theorem resetBlock_hasResetValues (s : State) : HasResetValues s.cfg (resetBlock s) := by
  rw [resetBlock_eq]
  exact resetWith_hasResetValues s.cfg

theorem step_of_reset {s : State} {rest : List Input} (h : nextEvent s = .reset rest) :
    step s = .next (resetBlock { s with inputs := rest }) := by
  rw [step, h]

/-- Settles O7: the step of a reset event is `resetBlock`, which starts from `State.resetWith` under the parameters held. -/
theorem resetGivesTheResetValues : Obligations.ResetGivesTheResetValues :=
  ⟨resetWith_hasResetValues, rfl,
    fun s rest h => ⟨_, step_of_reset h, resetBlock_hasResetValues { s with inputs := rest }⟩⟩

end Sys2Proof.Machine

/-! ## Decoding and encoding

Decode and encode undo each other on each port: an operation code, a command frame under a table that tells the commands
apart, and a received frame of either shape (30_encoding.md R70 to R82, 41_encoder.md R141, R148). -/

namespace Sys2Proof

/-! ### The operation port -/

theorem port_decodeHostOp (code : BitVec 3) : (decodeHostOp code).port = .host := by
  revert code
  decide

theorem decodeHostOp_wf (cfg : Config) (code : BitVec 3) : (decodeHostOp code).WF cfg = true := by
  unfold decodeHostOp
  split <;> rfl

/-- A code's encoding is its byte (R80). -/
theorem encode_decodeHostOp (cfg : Config) (code : BitVec 3) : encode cfg (decodeHostOp code) = [code.setWidth 8] := by
  have bytes : ∀ code, encode Config.default (decodeHostOp code) = [code.setWidth 8] := by decide
  have free : encode cfg (decodeHostOp code) = encode Config.default (decodeHostOp code) := by
    unfold decodeHostOp
    split <;> rfl
  rw [free, bytes]

theorem decodeHost_code (code : BitVec 3) : decodeHost [code.setWidth 8] = .ok (decodeHostOp code) := by
  revert code
  decide

/-- Only the byte of a code decodes on the operation port. -/
theorem decodeHost_eq_ok {bs : List Byte} {i : Instr} (h : decodeHost bs = .ok i) :
    ∃ code : BitVec 3, bs = [code.setWidth 8] ∧ i = decodeHostOp code := by
  unfold decodeHost at h
  split at h
  case h_2 b =>
    split at h
    case isTrue hb =>
      cases h
      refine ⟨b.setWidth 3, ?_, rfl⟩
      have hcode : b = (b.setWidth 3).setWidth 8 := BitVec.eq_of_toNat_eq (by simp; omega)
      rw [← hcode]
    case isFalse => cases h
  all_goals cases h

/-! ### The transmit port -/

theorem port_cmdInstr (c : Command) : (cmdInstr c).port = .tx := by cases c <;> rfl

theorem cmdInstr_wf (cfg : Config) (c : Command) : (cmdInstr c).WF cfg = true := by cases c <;> rfl

/-- A command instruction's encoding is `Encode(c)` (41_encoder.md R140). -/
theorem encode_cmdInstr (cfg : Config) (c : Command) : encode cfg (cmdInstr c) = cmdFrame cfg c := by cases c <;> rfl

theorem Command.mem_all (c : Command) : c ∈ Command.all := by cases c <;> decide

/-- In a list whose values are pairwise distinct the first element with a value is the only one. -/
theorem find?_eq_some_of_nodup {α β : Type} [DecidableEq β] {f : α → β} {l : List α} {a : α} (h : (l.map f).Nodup)
    (ha : a ∈ l) : (l.find? fun x => f x = f a) = some a := by
  have found : (l.find? fun x => f x = f a).isSome := List.find?_isSome.2 ⟨a, ha, by simp⟩
  obtain ⟨x, hx⟩ := Option.isSome_iff_exists.1 found
  have same : f x = f a := by simpa using List.find?_some hx
  rw [hx, List.inj_on_of_nodup_map h (List.mem_of_find?_eq_some hx) ha same]

/-- A command frame decodes to its command where the table tells the commands apart (R141). -/
theorem decodeCmd_cmdFrame {cfg : Config} (hd : cfg.Distinct) (c : Command) :
    decodeCmd cfg (cmdFrame cfg c) = .ok (cmdInstr c) := by
  have found : commandOf cfg (cfg.cmdTable.get c).opc (cfg.cmdTable.get c).data = some c :=
    find?_eq_some_of_nodup hd.1 c.mem_all
  simp [cmdFrame_eq, cmdHead, beBytes16, decodeCmd, found]

/-- Only a command's frame decodes on the transmit port. -/
theorem decodeCmd_eq_ok {cfg : Config} {bs : List Byte} {i : Instr} (h : decodeCmd cfg bs = .ok i) :
    ∃ c, bs = cmdFrame cfg c ∧ i = cmdInstr c := by
  unfold decodeCmd at h
  split at h
  case h_1 b0 b1 opc dh dl ch cl =>
    split at h; · cases h
    split at h; · cases h
    rename_i hhdr hchk
    obtain ⟨rfl, rfl⟩ : b0 = hdr0 ∧ b1 = hdr1 := by simpa using hhdr
    split at h
    case h_1 c hfind =>
      cases h
      have hentry : cfg.cmdTable.get c = ⟨opc, be16 dh dl⟩ := by simpa using List.find?_some hfind
      refine ⟨c, ?_, rfl⟩
      have hsum : sum16 [hdr0, hdr1, opc, dh, dl] = be16 ch cl := (not_not.1 hchk).symm
      simp [cmdFrame_eq, hentry, cmdHead, hsum]
    case h_2 => cases h
  case h_2 => split at h <;> cases h

/-! ### The receive port -/

/-- A received frame with a legal length and a payload of that length decodes by its shape (30_encoding.md R72 to R75). -/
theorem decodeRx_frame {cfg : Config} {len chk : Half} {p : List Byte} (hlegal : len = measLen ∨ len = cfg.ackLen)
    (hp : p.length + 2 = len.toNat) : decodeRx cfg (rxHead len p ++ beBytes16 chk) =
      .ok (if len = measLen then .rxMeas (fieldsOf p) chk else decodeAck cfg p chk) := by
  have hn : len.toNat - 2 = p.length := by omega
  have hlen : (p ++ beBytes16 chk).length = len.toNat := by rw [List.length_append, length_beBytes16, hp]
  have hlegal' : ¬ (len ≠ measLen ∧ len ≠ cfg.ackLen) := by tauto
  have hchk : be16 ((p ++ beBytes16 chk).getD p.length 0) ((p ++ beBytes16 chk).getD (p.length + 1) 0) = chk := by
    simp [beBytes16, List.getD_eq_getElem?_getD]
  rw [rxHead, List.append_assoc]
  simp only [List.cons_append, List.nil_append, decodeRx, be16_hi8_lo8, hlegal', hlen, hn, hchk, List.take_left]
  by_cases hm : len = measLen <;> simp [hm]

/-- Only a frame with a legal length decodes on the receive port, and by its shape. -/
theorem decodeRx_eq_ok {cfg : Config} (hc : cfg.WF) {bs : List Byte} {i : Instr} (h : decodeRx cfg bs = .ok i) :
    (∃ f chk, i = .rxMeas f chk) ∨ (∃ p chk, ackPayloadFits cfg p ∧ i = decodeAck cfg p chk) := by
  obtain ⟨hlo, -, -, -⟩ := hc
  unfold decodeRx at h
  split at h
  case h_2 => cases h
  case h_1 b0 b1 b2 b3 rest =>
    split at h; · cases h
    split at h; · cases h
    split at h; · cases h
    split at h; · cases h
    rename_i hlegal hshort hlong
    split at h
    case isTrue =>
      cases h
      exact .inl ⟨_, _, rfl⟩
    case isFalse hm =>
      cases h
      have hack : be16 b2 b3 = cfg.ackLen := by simpa [hm] using hlegal
      refine .inr ⟨_, _, ?_, rfl⟩
      rw [hack] at hshort ⊢
      rw [ackPayloadFits, List.length_take]
      omega

/-- The row an acknowledgement decodes to is well-formed: the generic one is left only where no named row fits (log 22). -/
theorem decodeAck_wf {cfg : Config} {p : List Byte} (chk : Half) (hp : ackPayloadFits cfg p) :
    (decodeAck cfg p chk).WF cfg = true := by
  unfold decodeAck
  split
  case isTrue hchk =>
    split
    case h_1 c hfind =>
      have hmem := List.mem_of_find?_eq_some hfind
      cases c with
      | requestRead => simp [Command.acked] at hmem
      | _ => rfl
    case h_2 hnone =>
      have unnamed : ∀ c ∈ Command.acked, cfg.ackPayload.get c ≠ p := by simpa using List.find?_eq_none.1 hnone
      exact decide_eq_true ⟨hp, fun c hc heq => absurd heq.symm (unnamed c hc)⟩
  case isFalse hchk => exact decide_eq_true ⟨hp, fun _ _ _ => hchk⟩

/-- An acknowledgement that is none of the named ones decodes to the generic row. -/
theorem decodeAck_generic {cfg : Config} {p : List Byte} {chk : Half} (h : ackIsGeneric cfg p chk) :
    decodeAck cfg p chk = .rxAck p chk := by
  unfold decodeAck
  split
  case isTrue hchk =>
    have unnamed : (Command.acked.find? fun c => cfg.ackPayload.get c = p) = none :=
      List.find?_eq_none.2 fun c hc => by simpa using fun heq => h c hc (Eq.symm heq) hchk
    rw [unnamed]
  case isFalse => rfl

/-- A command's acknowledgement decodes to its row where the payloads tell the commands apart (41_encoder.md R148). -/
theorem decodeAck_named {cfg : Config} (hd : cfg.Distinct) {c : Command} (hc : c ∈ Command.acked) :
    decodeAck cfg (cfg.ackPayload.get c) (Machine.ackSum cfg (cfg.ackPayload.get c)) =
      ackInstr (cfg.ackPayload.get c) (Machine.ackSum cfg (cfg.ackPayload.get c)) c := by
  have found : (Command.acked.find? fun x => cfg.ackPayload.get x = cfg.ackPayload.get c) = some c :=
    find?_eq_some_of_nodup hd.2 hc
  rw [decodeAck, Machine.ackSum, if_pos rfl, found]

/-- An acknowledgement whose payload fits decodes as one: its length is not the measurement's (40_decoder.md R110). -/
theorem decodeRx_ack {cfg : Config} (hc : cfg.WF) {p : List Byte} (chk : Half) (hp : ackPayloadFits cfg p) :
    decodeRx cfg (rxHead cfg.ackLen p ++ beBytes16 chk) = .ok (decodeAck cfg p chk) := by
  obtain ⟨hlo, -, hne, -⟩ := hc
  rw [decodeRx_frame (.inr rfl) (by rw [hp]; omega), if_neg hne]

/-- The payload of a command's acknowledgement has the length R110 fixes. -/
theorem Config.WF.payload_fits {cfg : Config} (hc : cfg.WF) {c : Command} (hm : c ∈ Command.acked) :
    ackPayloadFits cfg (cfg.ackPayload.get c) := by
  obtain ⟨-, -, -, hfits⟩ := hc
  exact hfits c hm

/-- The acknowledgement frame of a command decodes to the command's row. -/
theorem decodeRx_ackFrame {cfg : Config} (hc : cfg.WF) (hd : cfg.Distinct) {c : Command} (hm : c ∈ Command.acked) :
    decodeRx cfg (ackFrame cfg c) =
      .ok (ackInstr (cfg.ackPayload.get c) (Machine.ackSum cfg (cfg.ackPayload.get c)) c) := by
  rw [← decodeAck_named hd hm]
  exact decodeRx_ack hc _ (hc.payload_fits hm)

theorem decodeRx_measFrame (cfg : Config) (f : OutputFrame) (chk : Half) :
    decodeRx cfg (measFrame f chk) = .ok (.rxMeas f chk) := by
  have hlen : (fieldBytes f).length + 2 = measLen.toNat := by rw [length_fieldBytes]; rfl
  rw [measFrame, decodeRx_frame (.inl rfl) hlen, if_pos rfl, fieldsOf_fieldBytes]

/-- Settles O2, row by row: a code's byte, a command's frame, and a received frame of either shape each decode to what they
encode. -/
theorem decodeOfEncodeIsTheInstruction : Obligations.DecodeOfEncodeIsTheInstruction := by
  intro cfg i hc hd hw
  cases i with
  | rxMeas f chk => exact decodeRx_measFrame cfg f chk
  | rxAck p chk =>
    obtain ⟨hfits, hgeneric⟩ : ackPayloadFits cfg p ∧ ackIsGeneric cfg p chk := of_decide_eq_true hw
    exact (decodeRx_ack hc chk hfits).trans (by rw [decodeAck_generic hgeneric])
  | rxAckEnterPassive => exact decodeRx_ackFrame hc hd (c := .enterPassive) (by decide)
  | rxAckEnterActive => exact decodeRx_ackFrame hc hd (c := .enterActive) (by decide)
  | rxAckSleep => exact decodeRx_ackFrame hc hd (c := .sleep) (by decide)
  | rxAckWake => exact decodeRx_ackFrame hc hd (c := .wake) (by decide)
  | cmdEnterPassive => exact decodeCmd_cmdFrame hd .enterPassive
  | cmdEnterActive => exact decodeCmd_cmdFrame hd .enterActive
  | cmdRequestRead => exact decodeCmd_cmdFrame hd .requestRead
  | cmdSleep => exact decodeCmd_cmdFrame hd .sleep
  | cmdWake => exact decodeCmd_cmdFrame hd .wake
  | read => exact decodeHost_code 0
  | request => exact decodeHost_code 1
  | passive => exact decodeHost_code 2
  | active => exact decodeHost_code 3
  | sleep => exact decodeHost_code 4
  | wake => exact decodeHost_code 5
  | reservedOp6 => exact decodeHost_code 6
  | reservedOp7 => exact decodeHost_code 7

/-- Settles O3: on each port only an encoding decodes, and to a well-formed instruction of the port. -/
theorem encodeOfDecodedIsTheBytes : Obligations.EncodeOfDecodedIsTheBytes := by
  intro cfg p bs i hc h
  cases p with
  | host =>
    obtain ⟨code, rfl, rfl⟩ := decodeHost_eq_ok h
    exact ⟨port_decodeHostOp code, encode_decodeHostOp cfg code, decodeHostOp_wf cfg code⟩
  | tx =>
    obtain ⟨c, rfl, rfl⟩ := decodeCmd_eq_ok h
    exact ⟨port_cmdInstr c, encode_cmdInstr cfg c, cmdInstr_wf cfg c⟩
  | rx =>
    obtain ⟨hport, hbytes⟩ := encode_of_decodeRx hc h
    refine ⟨hport, hbytes, ?_⟩
    obtain ⟨f, chk, rfl⟩ | ⟨payload, chk, hfits, rfl⟩ := decodeRx_eq_ok hc h
    · rfl
    · exact decodeAck_wf chk hfits

/-! ### Words and frames of the default parameters -/

/-- Settles O1: the decoder evaluated on each word. -/
theorem tableWordsDecodeToTheirRows : Obligations.TableWordsDecodeToTheirRows := by
  refine ⟨?_, ?_, ?_, ?_, ?_, ?_, ?_, ?_, ⟨⟨List.replicate 13 0, rfl⟩, ?_, rfl⟩, ?_⟩ <;> decide

/-- Settles O5: the encoder evaluated on each command. -/
theorem defaultFramesOfTheTables : Obligations.DefaultFramesOfTheTables := by
  refine ⟨?_, ?_, ?_, ?_, ?_, ?_, ?_, ?_, ?_⟩ <;> decide

end Sys2Proof

/-! ## The host operations

Each operation has a code and a first step; an idle block accepts it, a busy one marks a fault (42_operations.md R160, R170 to
R175). -/

namespace Sys2Proof.Machine

/-- An operation's first step (R170 to R175). -/
def HostOp.first : HostOp → State → State
  | .read => readFirst
  | .request => requestFirst
  | .passive => modeFirst .enterPassive
  | .active => modeFirst .enterActive
  | .sleep => modeFirst .sleep
  | .wake => modeFirst .wake

/-- An operation's code runs its own start. -/
theorem exec_code (o : HostOp) (s : State) : exec (decodeHostOp o.code) s = startOp o o.first s := by cases o <;> rfl

/-- Every code is an operation's or reserved (30_encoding.md R80, R82). -/
theorem code_cases (code : BitVec 3) : (∃ o : HostOp, code = o.code) ∨ code = 6 ∨ code = 7 := by
  have h : code = 0 ∨ code = 1 ∨ code = 2 ∨ code = 3 ∨ code = 4 ∨ code = 5 ∨ code = 6 ∨ code = 7 := by
    revert code
    decide
  obtain h | h | h | h | h | h | h | h := h
  · exact .inl ⟨.read, h⟩
  · exact .inl ⟨.request, h⟩
  · exact .inl ⟨.passive, h⟩
  · exact .inl ⟨.active, h⟩
  · exact .inl ⟨.sleep, h⟩
  · exact .inl ⟨.wake, h⟩
  · exact .inr (.inl h)
  · exact .inr (.inr h)

theorem exec_reserved {code : BitVec 3} (h : code = 6 ∨ code = 7) (s : State) :
    exec (decodeHostOp code) s = startReserved s := by
  obtain rfl | rfl := h <;> rfl

/-- What an operation's first step can be: receive at once, or send its command and expect what it answers. -/
theorem HostOp.first_cases (o : HostOp) (s : State) :
    (o = .read ∧ s.reportMode = .active ∧ o.first s = recvStart { s with expect := .meas }) ∨
    ((o = .read ∧ s.reportMode = .passive ∨ o = .request) ∧
      o.first s = sendPhase o.command { s with expect := .meas }) ∨
    (o ≠ .read ∧ o ≠ .request ∧ o.first s = modeFirst o.command s) := by
  cases o with
  | read =>
    obtain ⟨hm, hfirst⟩ | ⟨hm, hfirst⟩ := readFirst_cases s
    · exact .inl ⟨rfl, hm, hfirst⟩
    · exact .inr (.inl ⟨.inl ⟨rfl, hm⟩, hfirst⟩)
  | request => exact .inr (.inl ⟨.inr rfl, rfl⟩)
  | _ => exact .inr (.inr ⟨nofun, nofun, rfl⟩)

/-- What an operation's first step leaves alone. -/
theorem HostOp.first_frame (o : HostOp) (s : State) : o.first s =
    { s with phase := (o.first s).phase, expect := (o.first s).expect, expCmd := (o.first s).expCmd
             decState := (o.first s).decState, decIdx := (o.first s).decIdx, txPort := (o.first s).txPort } := by
  obtain ⟨-, -, h⟩ | ⟨-, h⟩ | ⟨-, -, h⟩ := o.first_cases s <;> rw [h] <;> rfl

section
variable (o : HostOp) (s : State)

@[simp] theorem first_op : (o.first s).op = s.op := by rw [HostOp.first_frame]
@[simp] theorem first_buf : (o.first s).buf = s.buf := by rw [HostOp.first_frame]
@[simp] theorem first_outFrame : (o.first s).outFrame = s.outFrame := by rw [HostOp.first_frame]
@[simp] theorem first_lastResult : (o.first s).lastResult = s.lastResult := by rw [HostOp.first_frame]
@[simp] theorem first_fault : (o.first s).fault = s.fault := by rw [HostOp.first_frame]
@[simp] theorem first_cfg : (o.first s).cfg = s.cfg := by rw [HostOp.first_frame]
@[simp] theorem first_txLog : (o.first s).txLog = s.txLog := by rw [HostOp.first_frame]
@[simp] theorem first_doneLog : (o.first s).doneLog = s.doneLog := by rw [HostOp.first_frame]

/-- An operation that is started is in progress. -/
theorem first_phase_ne : (o.first s).phase ≠ .idle := by
  obtain ⟨-, -, h⟩ | ⟨-, h⟩ | ⟨-, -, h⟩ := o.first_cases s <;> rw [h] <;> nofun

end

/-- Settles O14: READ is accepted, and its first step in Active mode is RecvStart. -/
theorem readInActiveModeStartsReceiving : Obligations.ReadInActiveModeStartsReceiving := by
  intro s hf hp hm
  exact (startOp_idle hf hp).trans (by simp [readFirst, hm, recvStart])

/-- Settles O15: both are accepted, and their first step is SendPhase(RequestRead). -/
theorem readInPassiveModeAndRequestSendRequestRead : Obligations.ReadInPassiveModeAndRequestSendRequestRead := by
  intro s hf hp
  refine ⟨fun hm => ?_, startOp_idle hf hp⟩
  exact (startOp_idle hf hp).trans (by simp [readFirst, hm, sendPhase])

/-- Settles O16: each is accepted, and its first step is SendPhase of its command with the acknowledgement awaited. -/
theorem modeOperationsSendTheirCommand : Obligations.ModeOperationsSendTheirCommand :=
  fun _ hf hp => ⟨startOp_idle hf hp, startOp_idle hf hp, startOp_idle hf hp, startOp_idle hf hp⟩

/-- Settles O18: a busy start of an operation's code, and a reserved code in any phase, set the mark alone. -/
theorem startWhileBusySetsTheFaultMark : Obligations.StartWhileBusySetsTheFaultMark := by
  intro s code hf hp
  obtain ⟨o, rfl⟩ | hreserved := code_cases code
  · rw [exec_code, startOp_busy hf hp]
  · rw [exec_reserved hreserved, startReserved_eq hf]

/-- Settles O11: a code's byte decodes to its row, and a start event runs that row. -/
theorem startStepRunsTheDecodedOperation : Obligations.StartStepRunsTheDecodedOperation :=
  fun _ code _ h => ⟨decodeHost_code code, by rw [step, h]⟩

end Sys2Proof.Machine

/-! ## The command frames

A command frame that is outstanding and answered goes on with SendPhase; any other changes nothing (42_operations.md R163;
log 13, log 16). -/

namespace Sys2Proof.Machine

/-- An outstanding command takes the transport's answer. -/
theorem cmdStep_answered {c : Command} {s : State} {a : TxAnswer} {rest : List TxAnswer} (hf : s.fault = false)
    (hp : s.phase = .send) (hport : s.txPort = some (cmdFrame s.cfg c)) (ha : s.txAnswers = a :: rest) :
    cmdStep c s = .next (sendAnswered c a { s with txAnswers := rest }) := by simp [cmdStep, hf, hp, hport, ha]

/-- An accepted send that a frame is to follow starts the receive phase. -/
theorem sendAnswered_ok_awaited {c : Command} {s : State} (h : ¬ (s.expect = .ack ∧ s.cfg.ackExpected.get c = false)) :
    sendAnswered c .ok s = recvStart { s with txPort := none, txLog := s.txLog ++ [(cmdFrame s.cfg c, .ok)] } := if_neg h

/-- An accepted send that no acknowledgement is to follow ends the operation. -/
theorem sendAnswered_ok_unacknowledged {c : Command} {s : State} (he : s.expect = .ack)
    (hx : s.cfg.ackExpected.get c = false) : sendAnswered c .ok s =
      complete none (modeUpdate c { s with txPort := none, txLog := s.txLog ++ [(cmdFrame s.cfg c, .ok)] }) :=
  if_pos ⟨he, hx⟩

/-- Settles O21: the accepted command's SendPhase ends in RecvStart. -/
theorem acceptedCommandStartsReceiving : Obligations.AcceptedCommandStartsReceiving := by
  intro s c rest hf hp hport ha hawaited
  have ok : sendAnswered c .ok { s with txAnswers := rest } = _ := sendAnswered_ok_awaited hawaited
  rw [exec_cmdInstr, cmdStep_answered hf hp hport ha, ok]
  rfl

/-- Settles O22: the accepted command's SendPhase ends in `complete` after ModeUpdate, for each command. -/
theorem unacknowledgedCommandCompletes : Obligations.UnacknowledgedCommandCompletes := by
  intro s c rest hf hp hport ha he hx t
  have ends : cmdStep c s = .next (modeUpdate c t) := by
    have ok : sendAnswered c .ok { s with txAnswers := rest } = _ := sendAnswered_ok_unacknowledged he hx
    rw [cmdStep_answered hf hp hport ha, ok, complete_modeUpdate]
    rfl
  refine ⟨?_, ?_, ?_, ?_, ?_⟩ <;> (rintro rfl; exact ends)

/-- Settles O23: the failed command's SendPhase ends in `raise`. -/
theorem failedSendEndsWithSendFailed : Obligations.FailedSendEndsWithSendFailed := by
  intro s c rest hf hp hport ha
  rw [exec_cmdInstr, cmdStep_answered hf hp hport ha]
  rfl

/-- A command that is not outstanding in a send phase, or not answered, changes nothing. -/
theorem cmdStep_unanswered {c : Command} {s : State} (hf : s.fault = false)
    (h : s.phase ≠ .send ∨ s.txPort ≠ some (cmdFrame s.cfg c) ∨ s.txAnswers = []) : cmdStep c s = .next s := by
  obtain ⟨a, rest, hp, hport, ha, -⟩ | ⟨-, hs⟩ := cmdStep_cases (c := c) hf
  · simp [hp, hport, ha] at h
  · exact hs

/-- Settles O24: the hypothesis excludes the answered command, which is the one case that changes the state. -/
theorem commandNotAnsweredChangesNothing : Obligations.CommandNotAnsweredChangesNothing :=
  fun s c hf h => (exec_cmdInstr c s).trans (cmdStep_unanswered hf h)

/-- In a state of the invariant the outstanding send is the command of the operation in progress (20_memory.md R53). -/
theorem Inv.port_send {s : State} (hi : Inv s) (hp : s.phase = .send) :
    s.txPort = some (cmdFrame s.cfg s.op.command) := by rw [hi.port, if_pos hp]

theorem Inv.port_other {s : State} (hi : Inv s) (hp : s.phase ≠ .send) : s.txPort = none := by rw [hi.port, if_neg hp]

/-- Settles O12: the event is the answer, its step runs the operation's command, and the invariant names the bytes on the
port. -/
theorem sendStepRunsTheOutstandingCommand : Obligations.SendStepRunsTheOutstandingCommand := by
  intro s hi hf hp ha
  obtain ⟨a, rest, ha⟩ := List.exists_cons_of_ne_nil ha
  have hport := hi.port_send hp
  refine ⟨by rw [step, nextEvent_send hf hp ha], by rw [hport, encode_cmdInstr], fun hd bytes hbytes => ?_⟩
  rw [hport, Option.some.injEq] at hbytes
  rw [← hbytes]
  exact decodeCmd_cmdFrame hd s.op.command

/-- Settles O30: a received-frame instruction is `rxFrame` of its encoding. -/
theorem frameStillOnTheLineJoinsTheStream : Obligations.FrameStillOnTheLineJoinsTheStream := by
  intro s i hf hport hh
  rw [exec_rx hport, rxFrame_other hf hh]

end Sys2Proof.Machine

/-! ## The environment's inputs

What a step that meets an input does: an answer reaches the request that is outstanding or is dropped, a byte joins the stream,
a reset abandons the operation, and with no input the block waits (60_exceptions.md R213, R220; 70_reset_and_hazards.md R231,
R232). -/

namespace Sys2Proof.Machine

/-- With no answer there for the outstanding request the next input moves. -/
theorem nextEvent_of_waiting {s : State} (h : Waiting s) : nextEvent s = nextInput s := by
  obtain ⟨hf, htx, hrx⟩ := h
  unfold nextEvent
  rw [if_neg (by simp [hf])]
  cases hp : s.phase with
  | idle => rfl
  | send => rw [htx hp]
  | recv => rw [hrx hp]

/-- A dropped answer is taken from the inputs and does nothing else. -/
theorem step_dropped {s : State} {rest : List Input} (h : nextEvent s = .dropped rest) :
    step s = .next { s with inputs := rest } := by rw [step, h]

theorem step_txDraw {s : State} {a : TxAnswer} {rest : List Input} (h : nextEvent s = .txDraw a rest) :
    step s = .next { s with inputs := rest, txAnswers := s.txAnswers ++ [a] } := by rw [step, h]

theorem step_rxDraw {s : State} {a : RxAnswer} {rest : List Input} (h : nextEvent s = .rxDraw a rest) :
    step s = .next { s with inputs := rest, rxStream := s.rxStream ++ [a] } := by rw [step, h]

/-- Settles O58: the next input's event, clause by clause. -/
theorem onlyOutstandingRequestsAreAnswered : Obligations.OnlyOutstandingRequestsAreAnswered := by
  intro s rest hw
  have event := nextEvent_of_waiting hw
  obtain ⟨-, htx, hrx⟩ := hw
  refine ⟨fun a hin => step_dropped ?_, fun a hin => step_dropped ?_, fun a hin hp => step_dropped ?_, fun a hin hp => ?_,
    fun a hin hb hp => step_dropped ?_, fun a hin hp => ?_, fun b hin => step_rxDraw ?_⟩
  · simp [event, nextInput, hin]
  · simp [event, nextInput, hin]
  · simp [event, nextInput, hin, hp]
  · have draw : nextEvent s = .txDraw a rest := by simp [event, nextInput, hin, hp]
    rw [step_txDraw draw, htx hp, List.nil_append]
  · cases a with
    | byte b => exact absurd rfl (hb b)
    | _ => simp [event, nextInput, hin, hp]
  · have draw : nextEvent s = .rxDraw a rest := by cases a <;> simp [event, nextInput, hin, hp]
    rw [step_rxDraw draw, hrx hp, List.nil_append]
  · simp [event, nextInput, hin]

/-- Settles O10: no request is outstanding in IDLE, so of the events that are no start and no reset only a byte's arrival, an
answer's drop and the wait are left. -/
theorem idleBlockActsOnlyOnStart : Obligations.IdleBlockActsOnlyOnStart := by
  intro s t hp hstart hr h
  obtain ⟨-, hs⟩ | ⟨rest, hev, -⟩ | ⟨hev, -⟩ | ⟨a, rest, hev, -⟩ | ⟨code, rest, hev, -⟩ | ⟨a, rest, hev, -⟩ |
    ⟨a, rest, hev, hs⟩ | ⟨rest, hev, hs⟩ | ⟨-, hs⟩ := step_cases s
  · cases hs ▸ h
  · exact absurd hev (hr rest)
  · obtain ⟨-, hsend, -⟩ := event_txAnswered hev
    cases hp ▸ hsend
  · obtain ⟨-, hrecv, -⟩ := event_rxAnswered hev
    cases hp ▸ hrecv
  · exact absurd hev (hstart code rest)
  · obtain ⟨-, hsend, -⟩ := event_txDraw hev
    cases hp ▸ hsend
  · cases hs ▸ h
    obtain ⟨-, hin, hrecv | ⟨b, rfl⟩⟩ := event_rxDraw hev
    · cases hp ▸ hrecv
    · exact ⟨rfl, .inr (.inr ⟨b, hin, rfl⟩)⟩
  · cases hs ▸ h
    obtain ⟨-, i, hin, hi⟩ := event_dropped hev
    exact ⟨rfl, .inr (.inl ⟨i, hin, hi, rfl⟩)⟩
  · cases hs ▸ h
    exact ⟨rfl, .inl rfl⟩

/-- A state that steps to itself stays as it is. -/
theorem run_of_step_self {s : State} (h : step s = .next s) (k : Nat) : run k s = .next s := by
  induction k with
  | zero => rfl
  | succ k ih => rw [run, h, andThen_next, ih]

/-- Settles O25: no answer and no input is the event `waiting`, whose step is the state itself. -/
theorem silentTransportHoldsTheBlock : Obligations.SilentTransportHoldsTheBlock := by
  intro s k hf hin hsilent
  have hw : Waiting s := by
    obtain ⟨hp, ha⟩ | ⟨hp, ha⟩ := hsilent <;> simp [Waiting, hf, hp, ha]
  have event : nextEvent s = .waiting := by simp [nextEvent_of_waiting hw, nextInput, hin]
  exact run_of_step_self (by rw [step, event]) k

/-- An idle block drops the answers at the head of its inputs one by one. -/
theorem run_answers_idle {s : State} {owed rest : List Input} (hf : s.fault = false) (hp : s.phase = .idle)
    (hin : s.inputs = owed ++ rest) (ha : ∀ i ∈ owed, i.isAnswer = true) :
    run owed.length s = .next { s with inputs := rest } := by
  induction owed generalizing s with
  | nil =>
    obtain rfl : s.inputs = rest := hin
    rfl
  | cons i owed ih =>
    obtain ⟨hi, ha⟩ := List.forall_mem_cons.1 ha
    rw [List.length_cons, run, step_answer_idle hf hp hin hi, andThen_next]
    exact ih (s := { s with inputs := owed ++ rest }) hf hp rfl ha

/-- Settles O57: the reset leaves an idle block with no fault, which drops the answers owed; the reset itself does not look at
the inputs behind it. -/
theorem resetDropsTheAnswersOwed : Obligations.ResetDropsTheAnswersOwed := by
  intro s owed rest hev ha
  rw [Nat.add_comm, run, step_of_reset hev, andThen_next]
  exact run_answers_idle (s := resetBlock { s with inputs := owed ++ rest }) rfl rfl rfl ha

/-- A byte is no answer owed: it stays with the transport. -/
theorem withoutOwedError_byte (b : Byte) (st : List RxAnswer) : withoutOwedError (.byte b :: st) = .byte b :: st := rfl

/-- An error at the head is dropped. -/
theorem withoutOwedError_error {a : RxAnswer} (h : ∀ b, a ≠ .byte b) (st : List RxAnswer) :
    withoutOwedError (a :: st) = st := by
  cases a with
  | byte b => exact absurd rfl (h b)
  | _ => rfl

/-- A reset is the next event of a block with no fault only where it holds no answer for the request it cuts. -/
theorem waiting_of_reset {s : State} {rest : List Input} (hf : s.fault = false) (h : nextEvent s = .reset rest) :
    Waiting s := by
  unfold nextEvent at h
  rw [if_neg (by simp [hf])] at h
  refine ⟨hf, fun hp => ?_, fun hp => ?_⟩ <;> rw [hp] at h <;> dsimp only at h <;> split at h
  · assumption
  · cases h
  · assumption
  · cases h

/-- Settles O9: what `resetBlock` leaves with the transport, by the phase that it cuts. -/
theorem resetAbandonsTheOperation : Obligations.ResetAbandonsTheOperation := by
  intro s rest hev
  refine ⟨_, step_of_reset hev, rfl, rfl, rfl, rfl, rfl, fun hf => ?_, fun hp => if_pos hp, fun hp => txAfterCut_other hp,
    fun b more hrx => ?_, fun hp a more hrx herr => ?_, fun hp => rxAfterCut_other hp⟩
  · obtain ⟨-, htx, hrx⟩ := waiting_of_reset hf hev
    constructor
    · by_cases hp : s.phase = .send
      · exact (if_pos hp).trans (by simp [htx hp])
      · exact if_neg hp
    · by_cases hp : s.phase = .recv
      · exact (if_pos hp).trans (by simp [hrx hp, withoutOwedError])
      · exact if_neg hp
  · by_cases hp : s.phase = .recv
    · exact (if_pos hp).trans (by simp [hrx, withoutOwedError_byte])
    · exact if_neg hp
  · exact (if_pos hp).trans (by simp [hrx, withoutOwedError_error herr])

end Sys2Proof.Machine

/-! ## The length and the body of a frame

The steps that pull the bytes behind the header: a byte is stored, the length is judged at the fourth byte, and the last byte
makes the decoder hold the frame (40_decoder.md R103 to R106). -/

namespace Sys2Proof.Machine

/-- A pulled byte that does not complete a frame: the step is DecByte. -/
theorem step_byte_incomplete {s t : State} {b : Byte} {rest : List RxAnswer} (hf : s.fault = false) (hp : s.phase = .recv)
    (hr : s.rxStream = .byte b :: rest) (h : decByte b { s with rxStream := rest } = .next t)
    (hc : frameComplete t = false) : step s = .next t := by
  rw [step_recv hf hp hr, recvAnswer, h, andThen_next, runFrame_incomplete hc]

/-- A legal length leaves room for a checksum (R110). -/
theorem two_le_of_legal {cfg : Config} (hc : cfg.WF) {len : Half} (hl : len = measLen ∨ len = cfg.ackLen) :
    2 ≤ len.toNat := by
  obtain ⟨hlo, -, -, -⟩ := hc
  obtain rfl | rfl := hl
  · decide
  · exact hlo

/-- A legal length's frame fits the buffer (R110). -/
theorem le_28_of_legal {cfg : Config} (hc : cfg.WF) {len : Half} (hl : len = measLen ∨ len = cfg.ackLen) :
    len.toNat ≤ 28 := by
  obtain ⟨-, hhi, -, -⟩ := hc
  obtain rfl | rfl := hl
  · decide
  · exact hhi

/-- The first length byte is stored. -/
theorem step_len_first {s : State} {b : Byte} {rest : List RxAnswer} (hf : s.fault = false) (hp : s.phase = .recv)
    (hr : s.rxStream = .byte b :: rest) (hd : s.decState = .len) (hi : s.decIdx = 2) :
    step s = .next { s with rxStream := rest, buf := s.buf.write 2 b, decIdx := 3 } := by
  refine step_byte hf hp hr ?_ (by simp [hd])
  simp [decByte, hd, storeByte, hi, bufSize]

/-- The second length byte is stored, and LenCheck follows. -/
theorem decByte_len_second {s : State} {b : Byte} (hm : s.buf.wf = true) (hd : s.decState = .len) (hi : s.decIdx = 3) :
    decByte b s = .next
      (if be16 (s.buf.read 2) b ≠ measLen ∧ be16 (s.buf.read 2) b ≠ s.cfg.ackLen then
        raise .incorrectResponse (withDecoder .len 4 (be16 (s.buf.read 2) b) (s.buf.write 3 b) s)
      else withDecoder .body 4 (be16 (s.buf.read 2) b) (s.buf.write 3 b) s) := by
  have hlen : (s.buf.write 3 b).read16 2 = be16 (s.buf.read 2) b := by
    rw [Memory.read16, read_write_other hm (by decide), read_write_same hm]
  simp [decByte, hd, storeByte, hi, bufSize, lenCheck, withDecoder, hlen]

/-- A legal length leads to BODY. -/
theorem step_len_legal {s : State} {b : Byte} {rest : List RxAnswer} (hc : s.cfg.WF) (hf : s.fault = false)
    (hm : s.buf.wf = true) (hp : s.phase = .recv) (hr : s.rxStream = .byte b :: rest) (hd : s.decState = .len)
    (hi : s.decIdx = 3) (hl : be16 (s.buf.read 2) b = measLen ∨ be16 (s.buf.read 2) b = s.cfg.ackLen) :
    step s = .next (withDecoder .body 4 (be16 (s.buf.read 2) b) (s.buf.write 3 b) { s with rxStream := rest }) := by
  have hlen := two_le_of_legal hc hl
  refine step_byte_incomplete hf hp hr ((decByte_len_second (s := { s with rxStream := rest }) hm hd hi).trans ?_) ?_
  · dsimp only
    rw [if_neg (by tauto)]
  · simp only [frameComplete, withDecoder, frameLen, decide_eq_false_iff_not]
    omega

/-- Any other length ends the operation at once. -/
theorem step_len_illegal {s : State} {b : Byte} {rest : List RxAnswer} (hf : s.fault = false)
    (hm : s.buf.wf = true) (hp : s.phase = .recv) (hr : s.rxStream = .byte b :: rest) (hd : s.decState = .len)
    (hi : s.decIdx = 3) (hl : be16 (s.buf.read 2) b ≠ measLen ∧ be16 (s.buf.read 2) b ≠ s.cfg.ackLen) :
    step s = .next (raise .incorrectResponse
      (withDecoder .len 4 (be16 (s.buf.read 2) b) (s.buf.write 3 b) { s with rxStream := rest })) := by
  refine step_recv_raise hf hp hr ((decByte_len_second (s := { s with rxStream := rest }) hm hd hi).trans ?_)
  dsimp only
  rw [if_pos hl]

/-- Settles O33: the byte is written at `dec_idx`, and the second one's length decides between BODY and the error. -/
theorem lengthBytesAreCheckedAtTheFourth : Obligations.LengthBytesAreCheckedAtTheFourth := by
  intro s b rest hf hc hm hp hd hr
  refine ⟨s.buf.write s.decIdx b, read_write_same hm, fun a ha => read_write_other hm ha, fun hi => ?_, fun hi => ?_⟩
  · rw [hi]
    exact step_len_first hf hp hr hd hi
  · rw [hi]
    refine ⟨fun hl => step_len_legal hc hf hm hp hr hd hi hl, fun hmeas hack => ?_⟩
    rw [step_len_illegal hf hm hp hr hd hi ⟨hmeas, hack⟩]
    simp [raise, withDecoder, hd]

/-- A body byte is stored. -/
theorem decByte_body {s : State} {b : Byte} (hd : s.decState = .body) (hi : s.decIdx < bufSize) :
    decByte b s = .next { s with buf := s.buf.write s.decIdx b, decIdx := s.decIdx + 1 } := by
  rw [← storeByte_inside hi]
  simp [decByte, hd]

/-- A body byte before the last is only stored. -/
theorem step_body {s : State} {b : Byte} {rest : List RxAnswer} (hf : s.fault = false) (hp : s.phase = .recv)
    (hr : s.rxStream = .byte b :: rest) (hd : s.decState = .body) (hi : s.decIdx < bufSize)
    (hlast : s.decIdx + 1 ≠ frameLen s) :
    step s = .next { s with rxStream := rest, buf := s.buf.write s.decIdx b, decIdx := s.decIdx + 1 } :=
  step_byte_incomplete hf hp hr (decByte_body hd hi) (decide_eq_false fun ⟨_, _, h⟩ => hlast h)

/-- Settles O34: the byte is written at `dec_idx`, and with fewer bytes than the frame's length nothing follows. -/
theorem bodyByteBeforeTheLastIsOnlyStored : Obligations.BodyByteBeforeTheLastIsOnlyStored := by
  intro s b rest hf hm hp hd hi hlast hr
  exact ⟨s.buf.write s.decIdx b, read_write_same hm, fun a ha => read_write_other hm ha,
    step_body hf hp hr hd hi (by omega)⟩

/-- The last body byte completes the frame, which is run. -/
theorem step_body_complete {s : State} {b : Byte} {rest : List RxAnswer} (hf : s.fault = false) (hp : s.phase = .recv)
    (hr : s.rxStream = .byte b :: rest) (hd : s.decState = .body) (hi : s.decIdx < bufSize)
    (hlast : s.decIdx + 1 = frameLen s) :
    let t := { s with rxStream := rest, buf := s.buf.write s.decIdx b, decIdx := s.decIdx + 1 }
    frameComplete t = true ∧ step s = runFrame t := by
  refine ⟨decide_eq_true ⟨hp, hd, hlast⟩, ?_⟩
  rw [step_recv hf hp hr, recvAnswer, decByte_body (s := { s with rxStream := rest }) hd hi, andThen_next]

/-- The last body byte completes the frame, which is validated. -/
theorem step_body_last {s : State} {b : Byte} {rest : List RxAnswer} (hc : s.cfg.WF) (hf : s.fault = false)
    (hp : s.phase = .recv) (hr : s.rxStream = .byte b :: rest) (hd : s.decState = .body) (hi : s.decIdx < bufSize)
    (hlast : s.decIdx + 1 = frameLen s) :
    step s = validate { s with rxStream := rest, buf := s.buf.write s.decIdx b, decIdx := s.decIdx + 1 } := by
  obtain ⟨hcomplete, hs⟩ := step_body_complete hf hp hr hd hi hlast
  rw [hs]
  exact runFrame_complete (s := { s with rxStream := rest, buf := s.buf.write s.decIdx b, decIdx := s.decIdx + 1 })
    hc hf hcomplete

/-- The bytes held with a header and their length in the buffer are a received frame of that length. -/
theorem heldFrame_eq {s : State} (hh : HeaderHeld s) (hl : s.buf.read16 2 = s.decLen) (h2 : 2 ≤ s.decLen.toNat) :
    heldFrame s = rxHead s.decLen (s.buf.readBytes 4 (s.decLen.toNat - 2)) ++
      beBytes16 (s.buf.read16 (2 + s.decLen.toNat)) := by
  obtain ⟨h0, h1⟩ := hh
  have hhead : s.buf.readBytes 0 4 = [hdr0, hdr1, hi8 s.decLen, lo8 s.decLen] := by
    simp [Memory.readBytes, List.range_succ, h0, h1, ← hl, Memory.read16]
  have hchk : s.buf.readBytes (2 + s.decLen.toNat) 2 = beBytes16 (s.buf.read16 (2 + s.decLen.toNat)) := by
    simp [Memory.readBytes, List.range_succ, Memory.read16]
  have hlen : frameLen s = 4 + (s.decLen.toNat - 2) + 2 := by rw [frameLen]; omega
  rw [heldFrame, hlen, readBytes_add, readBytes_add, hhead, rxHead, ← hchk]
  congr 2
  omega

/-- The frame held is the instruction its bytes decode to. -/
theorem fetchFrame_eq {s : State} {i : Instr} (h : decode s.cfg .rx (heldFrame s) = .ok i) : fetchFrame s = some i := by
  rw [fetchFrame, h]

theorem decoderOk_hunt {s : State} (hd : s.decState = .hunt0 ∨ s.decState = .hunt1) : DecoderOk s ↔ s.decIdx = 0 := by
  obtain hd | hd := hd <;> simp [DecoderOk, hd]

theorem decoderOk_len {s : State} (hd : s.decState = .len) :
    DecoderOk s ↔ (s.decIdx = 2 ∨ s.decIdx = 3) ∧ HeaderHeld s := by simp [DecoderOk, hd]

theorem decoderOk_body {s : State} (hd : s.decState = .body) : DecoderOk s ↔
    (s.decLen = measLen ∨ s.decLen = s.cfg.ackLen) ∧ 4 ≤ s.decIdx ∧ s.decIdx < frameLen s ∧ HeaderHeld s ∧
      s.buf.read16 2 = s.decLen := by simp [DecoderOk, hd]

/-- A write behind the first four bytes leaves the header and the length alone. -/
theorem headerHeld_write {s : State} (hm : s.buf.wf = true) {a : Nat} (ha : 2 ≤ a) (b : Byte) (hh : HeaderHeld s) :
    (s.buf.write a b).read 0 = hdr0 ∧ (s.buf.write a b).read 1 = hdr1 := by
  rw [read_write_other hm (by omega), read_write_other hm (by omega)]
  exact hh

/-- Settles O13: the invariant makes the bytes held a frame with a legal length, which decodes; the frame is run as what it
decodes to. -/
theorem lastByteStepRunsTheDecodedFrame : Obligations.LastByteStepRunsTheDecodedFrame := by
  intro s b rest hi hf hp hd hlast hr t
  obtain ⟨hl, h4, -, hh, hlen⟩ := (decoderOk_body hd).1 (hi.decoder hp)
  have hfit := frameLen_le_bufSize hi.cfg_wf hl
  have h2 := two_le_of_legal hi.cfg_wf hl
  have hheld : heldFrame t = _ := heldFrame_eq (s := t) (headerHeld_write hi.buf_wf (by omega) b hh)
    ((read16_write hi.buf_wf (by omega)).trans hlen) h2
  have hpay : (t.buf.readBytes 4 (t.decLen.toNat - 2)).length + 2 = t.decLen.toNat := by
    rw [length_readBytes]
    exact Nat.sub_add_cancel h2
  obtain ⟨i, hdec⟩ : ∃ i, decodeRx s.cfg (heldFrame t) = .ok i := ⟨_, hheld ▸ decodeRx_frame hl hpay⟩
  obtain ⟨hport, henc⟩ := encode_of_decodeRx hi.cfg_wf hdec
  obtain ⟨hcomplete, hs⟩ := step_body_complete hf hp hr hd (by omega) hlast
  refine ⟨i, hdec, hport, ?_, ?_⟩
  · rw [holds, hcomplete, henc, Bool.true_and, decide_eq_true rfl]
  · rw [hs, runFrame, if_pos hcomplete, fetchFrame_eq (s := t) hdec]

end Sys2Proof.Machine

/-! ## A held frame with its right checksum

What FrameDone makes of it, by the shape and the payload that are awaited (42_operations.md R162, 60_exceptions.md R205). -/

namespace Sys2Proof.Machine

/-- An awaited measurement is delivered. -/
theorem frameDone_meas {s : State} (he : s.expect = .meas) : frameDone .meas s =
    complete (some (measFields s.buf)) { s with outFrame := some (measFields s.buf) } := by simp [frameDone, he]

/-- The awaited acknowledgement completes its operation. -/
theorem frameDone_ack {s : State} (he : s.expect = .ack) (hp : ackPayload s.cfg s.buf = s.cfg.ackPayload.get s.expCmd) :
    frameDone .ack s = complete none (modeUpdate s.expCmd s) := by simp [frameDone, he, hp]

/-- A frame of the other shape, or with another payload, ends the operation. -/
theorem frameDone_unexpected {s : State} {kind : Shape} (h : kind ≠ s.expect ∨
    s.expect = .ack ∧ ackPayload s.cfg s.buf ≠ s.cfg.ackPayload.get s.expCmd) :
    frameDone kind s = raise .incorrectResponse s := by
  obtain ⟨he, hk, -⟩ | ⟨he, hk, hpay, -⟩ | ⟨-, hd⟩ := frameDone_cases kind s
  · simp [he, hk] at h
  · simp [he, hk, hpay] at h
  · exact hd

/-- A held measurement frame with its right checksum goes on to FrameDone as a measurement. -/
theorem validate_measFrame {s : State} {f : OutputFrame} (h : holds s (measFrame f (measSum f)) = true) :
    validate s = .next (frameDone .meas s) := by
  have hlen := holds_measFrame_decLen h
  have hfit : frameLen s ≤ bufSize := by rw [frameLen, hlen]; decide
  rw [validate_of_right_checksum hfit h, shapeOf, if_pos hlen]

/-- A held acknowledgement frame has the acknowledgement's length. -/
theorem holds_ack_decLen {s : State} (hc : s.cfg.WF) {p : List Byte} {chk : Half} (hp : ackPayloadFits s.cfg p)
    (h : holds s (rxHead s.cfg.ackLen p ++ beBytes16 chk) = true) : s.decLen = s.cfg.ackLen := by
  obtain ⟨hlo, -⟩ := hc
  have hlen := holds_length h
  rw [List.length_append, length_rxHead, hp, length_beBytes16, frameLen] at hlen
  exact BitVec.eq_of_toNat_eq (by omega)

/-- A held acknowledgement frame with its right checksum goes on to FrameDone as an acknowledgement. -/
theorem validate_ack {s : State} (hc : s.cfg.WF) {p : List Byte} (hp : ackPayloadFits s.cfg p)
    (h : holds s (rxHead s.cfg.ackLen p ++ beBytes16 (ackSum s.cfg p)) = true) :
    validate s = .next (frameDone .ack s) := by
  have hlen := holds_ack_decLen hc hp h
  have hfit := frameLen_le_bufSize hc (.inr hlen)
  obtain ⟨-, -, hne, -⟩ := hc
  rw [validate_of_right_checksum hfit h, shapeOf, if_neg (hlen ▸ hne)]

/-- The payload read back from a held acknowledgement frame is its own (40_decoder.md R109). -/
theorem ackPayload_of_held {s : State} {p : List Byte} {chk : Half} (hp : ackPayloadFits s.cfg p)
    (h : holds s (rxHead s.cfg.ackLen p ++ beBytes16 chk) = true) : ackPayload s.cfg s.buf = p := by
  obtain ⟨-, -, hpay⟩ := holds_parts h
  rwa [ackPayload, ← hp]

/-- The commands that an acknowledgement answers are all but RequestRead (41_encoder.md R148). -/
theorem mem_acked {c : Command} (h : c ≠ .requestRead) : c ∈ Command.acked := by
  cases c with
  | requestRead => exact absurd rfl h
  | _ => decide

/-- The awaited acknowledgement, held, is validated to the successful end of its operation. -/
theorem validate_awaited {s : State} (hc : s.cfg.WF) (he : s.expect = .ack) (hr : s.expCmd ≠ .requestRead)
    (h : holds s (ackFrame s.cfg s.expCmd) = true) : validate s = .next (complete none (modeUpdate s.expCmd s)) := by
  have hfits := hc.payload_fits (mem_acked hr)
  rw [validate_ack hc hfits h, frameDone_ack he (ackPayload_of_held hfits h)]

/-- Settles O27: whichever row the frame is run as, it is validated, and FrameDone finds the awaited payload. -/
theorem awaitedAcknowledgementUpdatesTheMode : Obligations.AwaitedAcknowledgementUpdatesTheMode := by
  intro s hf hc he hr h t
  have ends : ∀ (i : Instr) (c : Command), i.port = .rx → encode s.cfg i = ackFrame s.cfg c → s.expCmd = c →
      exec i s = .next (modeUpdate c t) := by
    rintro i c hport henc rfl
    rw [exec_of_held hf hport (henc ▸ h), validate_awaited hc he hr h, complete_modeUpdate]
    rfl
  exact ⟨ends _ .enterPassive rfl rfl, ends _ .enterActive rfl rfl, ends _ .sleep rfl rfl, ends _ .wake rfl rfl,
    ends _ _ rfl rfl rfl⟩

/-- Settles O29: the held frame passes Validate, and FrameDone finds another shape or another payload. -/
theorem unexpectedFrameEndsWithIncorrectResponse : Obligations.UnexpectedFrameEndsWithIncorrectResponse := by
  refine ⟨fun s f hf he h => ?_, fun s p hf hc hp h hother => ?_⟩
  · rw [exec_of_held (i := .rxMeas f (measSum f)) hf rfl h, validate_measFrame h, frameDone_unexpected (.inl (by simp [he]))]
    rfl
  · have unexpected : Shape.ack ≠ s.expect ∨
        s.expect = .ack ∧ ackPayload s.cfg s.buf ≠ s.cfg.ackPayload.get s.expCmd := by
      rw [ackPayload_of_held hp h]
      cases he : s.expect with
      | meas => exact .inl nofun
      | ack => exact .inr ⟨rfl, by simpa [he] using hother⟩
    have ends : ∀ i : Instr, i.port = .rx → encode s.cfg i = encode s.cfg (.rxAck p (ackSum s.cfg p)) →
        exec i s = .next (endedBy .incorrectResponse s) := by
      intro i hport henc
      rw [exec_of_held hf hport (henc ▸ h), validate_ack hc hp h, frameDone_unexpected unexpected]
      rfl
    refine ⟨ends _ rfl rfl, ?_, ?_, ?_, ?_⟩ <;> (rintro rfl; exact ends _ rfl rfl)

/-- Settles O31: only the right checksum leads to OK, and the fields delivered are then the frame's own. -/
theorem acceptedFrameIsTheEncodingOfItsFields : Obligations.AcceptedFrameIsTheEncodingOfItsFields := by
  intro s t f g chk he h hexec hok hout
  obtain ⟨hf, -⟩ := unlessFaulted_eq_next (show unlessFaulted s _ = .next t from hexec)
  have hval : validate s = .next t := exec_of_held (i := .rxMeas f chk) hf rfl h ▸ hexec
  have hchk : chk = measSum f := by
    by_contra hne
    have hfit : frameLen s ≤ bufSize := by rw [frameLen, holds_measFrame_decLen h]; decide
    rw [validate_of_wrong_checksum hfit hne h] at hval
    cases hval
    cases hok
  subst hchk
  rw [validate_measFrame h, frameDone_meas he, holds_measFields h] at hval
  cases hval
  cases hout
  obtain ⟨-, -, -, hheld⟩ := holds_iff.1 h
  rw [hheld]
  rfl

end Sys2Proof.Machine

/-! ## Whole receive phases

A receive phase pulls a frame byte by byte: the hunt discards what comes before the header, the head fixes the length, and the
body is stored to its last byte, at which the frame is held and validated (40_decoder.md R101 to R106, R112 to R114). -/

namespace Sys2Proof.Machine

/-! ### Runs -/

theorem run_succ (k : Nat) (s : State) : run (k + 1) s = andThen (step s) (run k) := rfl

theorem run_one (s : State) : run 1 s = step s := by
  rw [run_succ]
  cases step s <;> rfl

/-- A run is cut in two at a state it passes. -/
theorem run_add {m n : Nat} {s t : State} (h : run m s = .next t) : run (m + n) s = run n t := by
  induction m generalizing s with
  | zero =>
    cases h
    rw [Nat.zero_add]
  | succ m ih =>
    obtain ⟨u, hu, h⟩ := andThen_eq_next h
    rw [Nat.add_right_comm, run_succ, hu, andThen_next, ih h]

theorem run_cons {k : Nat} {s t : State} (h : step s = .next t) : run (k + 1) s = run k t := by
  rw [run_succ, h, andThen_next]

/-! ### Bytes stored one after another -/

theorem loadBytes_keeps_wf {m : Memory} {a : Nat} {bs : List Byte} (hm : m.wf = true) (h : a + bs.length ≤ bufSize) :
    (loadBytes m a bs).wf = true := by
  induction bs generalizing m a with
  | nil => exact hm
  | cons b bs ih =>
    rw [List.length_cons] at h
    exact ih (write_keeps_wf hm (by omega)) (by omega)

/-- Bytes below the first index are as before. -/
theorem read_loadBytes_below {m : Memory} {a x : Nat} {bs : List Byte} (hm : m.wf = true) (h : a + bs.length ≤ bufSize)
    (hx : x < a) : (loadBytes m a bs).read x = m.read x := by
  induction bs generalizing m a with
  | nil => rfl
  | cons b bs ih =>
    rw [List.length_cons] at h
    rw [loadBytes, ih (write_keeps_wf hm (by omega)) (by omega) (by omega), read_write_other hm (by omega)]

/-- The bytes stored are read back. -/
theorem readBytes_loadBytes {m : Memory} {a : Nat} {bs : List Byte} (hm : m.wf = true) (h : a + bs.length ≤ bufSize) :
    (loadBytes m a bs).readBytes a bs.length = bs := by
  induction bs generalizing m a with
  | nil => rfl
  | cons b bs ih =>
    rw [List.length_cons] at h ⊢
    have hm' : (m.write a b).wf = true := write_keeps_wf hm (by omega)
    have hfirst : (loadBytes (m.write a b) (a + 1) bs).readBytes a 1 = [b] := by
      simp [Memory.readBytes, read_loadBytes_below hm' (show a + 1 + bs.length ≤ bufSize by omega), read_write_same hm]
    rw [loadBytes, Nat.add_comm bs.length, readBytes_add, hfirst, ih hm' (by omega), List.singleton_append]

theorem loadBytes_append (m : Memory) (a : Nat) (xs ys : List Byte) :
    loadBytes m a (xs ++ ys) = loadBytes (loadBytes m a xs) (a + xs.length) ys := by
  induction xs generalizing m a with
  | nil => rfl
  | cons x xs ih =>
    rw [List.cons_append, loadBytes, ih, List.length_cons, Nat.add_right_comm]
    rfl

/-! ### The hunt -/

/-- A receive phase that has not met a header yet. -/
structure Hunting (s : State) (stream : List RxAnswer) : Prop where
  clear : s.fault = false
  buf_wf : s.buf.wf = true
  recv : s.phase = .recv
  hunt : s.decState = .hunt0 ∨ s.decState = .hunt1
  stream_eq : s.rxStream = stream

theorem Hunting.of_receiving {s : State} {stream : List RxAnswer} (h : Receiving s stream) : Hunting s stream := by
  obtain ⟨hf, hm, hp, hd, hr⟩ := h
  exact ⟨hf, hm, hp, .inl hd, hr⟩

/-- The hunt's state after a byte that does not end it. -/
def huntAfter (b : Byte) : DecState := if b = hdr0 then .hunt1 else .hunt0

/-- A byte that does not end the hunt is discarded. -/
theorem step_hunt {s : State} {b : Byte} {rest : List RxAnswer} (h : Hunting s (.byte b :: rest))
    (hb : s.decState = .hunt1 → b ≠ hdr1) : step s = .next { s with rxStream := rest, decState := huntAfter b } := by
  obtain ⟨hf, -, hp, hd, hr⟩ := h
  unfold huntAfter
  split
  case isTrue h0 =>
    subst h0
    obtain hd | hd := hd
    · exact step_byte hf hp hr (decByte_hunt0_hdr0 hd) nofun
    · exact step_byte hf hp hr (decByte_hunt1_hdr0 hd) nofun
  case isFalse h0 =>
    obtain hd | hd := hd
    · rw [step_byte hf hp hr (decByte_hunt0_other hd h0) (by simp [hd]), ← hd]
    · exact step_byte hf hp hr (decByte_hunt1_other hd (hb hd) h0) nofun

theorem Hunting.discard {s : State} {b : Byte} {rest : List RxAnswer} (h : Hunting s (.byte b :: rest)) :
    Hunting { s with rxStream := rest, decState := huntAfter b } rest := by
  obtain ⟨hf, hm, hp, -, -⟩ := h
  refine ⟨hf, hm, hp, ?_, rfl⟩
  show huntAfter b = .hunt0 ∨ huntAfter b = .hunt1
  unfold huntAfter
  split <;> simp

/-- Noise with no header pair is discarded byte by byte; a first byte 42 seen before it is no half of a pair with it. -/
theorem run_noise {s : State} {p : List Byte} {rest : List RxAnswer} (h : Hunting s (byteDraws p ++ rest))
    (hp : NoHeader p) (hfirst : s.decState = .hunt1 → p.head? ≠ some hdr1) :
    ∃ d, run p.length s = .next { s with rxStream := rest, decState := d } ∧
      Hunting { s with rxStream := rest, decState := d } rest := by
  induction p generalizing s with
  | nil =>
    obtain rfl : s.rxStream = rest := h.stream_eq
    exact ⟨s.decState, rfl, h⟩
  | cons b p ih =>
    have hstep := step_hunt (rest := byteDraws p ++ rest) h fun hd => by simpa using hfirst hd
    have hp' : NoHeader p := by
      cases p with
      | nil => trivial
      | cons b' p => exact hp.2
    have hnext : huntAfter b = .hunt1 → p.head? ≠ some hdr1 := by
      intro hd
      have hb : b = hdr0 := by
        by_contra hne
        simp [huntAfter, hne] at hd
      cases p with
      | nil => nofun
      | cons b' p => simpa using fun hb' => hp.1 ⟨hb, hb'⟩
    obtain ⟨d, hrun, hhunt⟩ := ih (h.discard (rest := byteDraws p ++ rest)) hp' hnext
    exact ⟨d, (run_cons hstep).trans hrun, hhunt⟩

/-- The header ends the hunt. -/
theorem run_header {s : State} {rest : List RxAnswer} (h : Hunting s (.byte hdr0 :: .byte hdr1 :: rest)) :
    run 2 s = .next (takeHeader { s with rxStream := rest }) := by
  have hfirst := step_hunt h fun _ => by decide
  obtain ⟨hf, -, hp, -, hr⟩ := h.discard
  rw [run_cons hfirst, run_one]
  exact step_byte hf hp hr (decByte_hunt1_hdr1 rfl) nofun

/-- The header and the first length byte, with the second one next on the stream. -/
theorem run_head {s : State} {b2 b3 : Byte} {rest : List RxAnswer}
    (h : Hunting s (byteDraws [hdr0, hdr1, b2, b3] ++ rest)) :
    run 3 s = .next (withDecoder .len 3 s.decLen (loadBytes s.buf 0 [hdr0, hdr1, b2])
      { s with rxStream := .byte b3 :: rest }) := by
  have hheader := run_header (rest := .byte b2 :: .byte b3 :: rest) h
  rw [run_add (n := 1) hheader, run_one]
  exact step_len_first h.clear h.recv rfl rfl rfl

/-- The buffer with the header and the first length byte: in its canonical form, and the length byte is read back. -/
theorem loadBytes_head {m : Memory} (hm : m.wf = true) (b2 : Byte) :
    (loadBytes m 0 [hdr0, hdr1, b2]).wf = true ∧ (loadBytes m 0 [hdr0, hdr1, b2]).read 2 = b2 := by
  have hheader : (loadBytes m 0 [hdr0, hdr1]).wf = true := loadBytes_keeps_wf hm (by decide)
  exact ⟨write_keeps_wf hheader (by decide), read_write_same hheader⟩

/-- A head with a legal length leads to BODY. -/
theorem run_head_legal {s : State} {b2 b3 : Byte} {rest : List RxAnswer} (hc : s.cfg.WF)
    (h : Hunting s (byteDraws [hdr0, hdr1, b2, b3] ++ rest)) (hl : be16 b2 b3 = measLen ∨ be16 b2 b3 = s.cfg.ackLen) :
    run 4 s = .next (withDecoder .body 4 (be16 b2 b3) (loadBytes s.buf 0 [hdr0, hdr1, b2, b3])
      { s with rxStream := rest }) := by
  obtain ⟨hm, hread⟩ := loadBytes_head h.buf_wf b2
  have hstep := step_len_legal (s := withDecoder .len 3 s.decLen (loadBytes s.buf 0 [hdr0, hdr1, b2])
    { s with rxStream := .byte b3 :: rest }) hc h.clear hm h.recv rfl rfl rfl (by rwa [withDecoder, hread])
  rw [run_add (n := 1) (run_head h), run_one, hstep]
  dsimp only [withDecoder]
  rw [hread]
  rfl

/-- A head with any other length ends the operation. -/
theorem run_head_illegal {s : State} {b2 b3 : Byte} {rest : List RxAnswer}
    (h : Hunting s (byteDraws [hdr0, hdr1, b2, b3] ++ rest)) (hl : be16 b2 b3 ≠ measLen ∧ be16 b2 b3 ≠ s.cfg.ackLen) :
    run 4 s = .next (raise .incorrectResponse
      (withDecoder .len 4 (be16 b2 b3) (loadBytes s.buf 0 [hdr0, hdr1, b2, b3]) { s with rxStream := rest })) := by
  obtain ⟨hm, hread⟩ := loadBytes_head h.buf_wf b2
  have hstep := step_len_illegal (s := withDecoder .len 3 s.decLen (loadBytes s.buf 0 [hdr0, hdr1, b2])
    { s with rxStream := .byte b3 :: rest }) h.clear hm h.recv rfl rfl rfl (by rwa [withDecoder, hread])
  rw [run_add (n := 1) (run_head h), run_one, hstep]
  dsimp only [withDecoder]
  rw [hread]
  rfl

/-! ### The body -/

/-- The rest of a frame is stored, and at its last byte the frame is validated. -/
theorem run_body {s : State} {bs : List Byte} {rest : List RxAnswer} (hc : s.cfg.WF) (hf : s.fault = false)
    (hp : s.phase = .recv) (hd : s.decState = .body) (hr : s.rxStream = byteDraws bs ++ rest) (hne : bs ≠ [])
    (hlen : s.decIdx + bs.length = frameLen s) (hfit : frameLen s ≤ bufSize) :
    run bs.length s = validate
      { s with rxStream := rest, buf := loadBytes s.buf s.decIdx bs, decIdx := s.decIdx + bs.length } := by
  induction bs generalizing s with
  | nil => exact absurd rfl hne
  | cons b bs ih =>
    rw [List.length_cons] at hlen
    cases bs with
    | nil =>
      rw [List.length_singleton, run_one]
      exact step_body_last hc hf hp hr hd (by omega) hlen
    | cons b' bs =>
      have hstep := step_body hf hp hr hd (by omega) (by rw [List.length_cons] at hlen; omega)
      rw [List.length_cons, run_cons hstep]
      have hrun := ih (s := { s with
        rxStream := byteDraws (b' :: bs) ++ rest, buf := s.buf.write s.decIdx b, decIdx := s.decIdx + 1 })
        hc hf hp hd rfl nofun ((Nat.add_right_comm ..).trans hlen) hfit
      rw [← Nat.add_assoc, Nat.add_right_comm]
      exact hrun

/-- The state with these bytes held as its frame and this stream left. -/
def received (len : Half) (bytes : List Byte) (rest : List RxAnswer) (s : State) : State :=
  withDecoder .body (4 + len.toNat) len (loadBytes s.buf 0 bytes) { s with rxStream := rest }

/-- A whole frame of a legal length is stored, held and validated. -/
theorem run_frame {s : State} {len chk : Half} {p : List Byte} {rest : List RxAnswer} (hc : s.cfg.WF)
    (h : Hunting s (byteDraws (rxHead len p ++ beBytes16 chk) ++ rest)) (hl : len = measLen ∨ len = s.cfg.ackLen)
    (hp : p.length + 2 = len.toNat) :
    run (4 + len.toNat) s = validate (received len (rxHead len p ++ beBytes16 chk) rest s) ∧
    holds (received len (rxHead len p ++ beBytes16 chk) rest s) (rxHead len p ++ beBytes16 chk) = true := by
  have h28 := le_28_of_legal hc hl
  have hlen : (rxHead len p ++ beBytes16 chk).length = 4 + len.toNat := by
    rw [List.length_append, length_rxHead, length_beBytes16]
    omega
  have hbody : (p ++ beBytes16 chk).length = len.toNat := by rw [List.length_append, length_beBytes16, hp]
  have hne : p ++ beBytes16 chk ≠ [] := by simp [beBytes16]
  have hsplit : rxHead len p ++ beBytes16 chk = [hdr0, hdr1, hi8 len, lo8 len] ++ (p ++ beBytes16 chk) := by
    rw [rxHead, List.append_assoc]
  constructor
  · rw [hsplit, byteDraws, List.map_append, List.append_assoc] at h
    have hhead := run_head_legal hc h (by rwa [be16_hi8_lo8])
    rw [be16_hi8_lo8] at hhead
    have hrest := run_body (s := withDecoder .body 4 len (loadBytes s.buf 0 [hdr0, hdr1, hi8 len, lo8 len])
      { s with rxStream := byteDraws (p ++ beBytes16 chk) ++ rest }) hc h.clear h.recv rfl rfl hne
      (congrArg (4 + ·) hbody) (Nat.add_le_add_left h28 4)
    rw [hbody] at hrest
    rw [received, hsplit, loadBytes_append]
    exact (run_add hhead).trans hrest
  · refine holds_iff.2 ⟨h.recv, rfl, rfl, ?_⟩
    have hread := readBytes_loadBytes (a := 0) (bs := rxHead len p ++ beBytes16 chk) h.buf_wf
      (by rw [hlen, bufSize]; omega)
    rwa [hlen] at hread

/-- A receive phase that expects a measurement and meets one delivers it. -/
theorem run_measurement {s : State} {f : OutputFrame} {rest : List RxAnswer} (hc : s.cfg.WF) (he : s.expect = .meas)
    (h : Hunting s (byteDraws (measEncode f) ++ rest)) : ∃ d i l m,
      run 32 s = .next (complete (some f)
        { withDecoder d i l m { s with rxStream := rest } with outFrame := some f }) := by
  obtain ⟨hrun, hheld⟩ := run_frame (p := fieldBytes f) (chk := measSum f) hc h (.inl rfl)
    (by rw [length_fieldBytes]; rfl)
  have hfields : measFields (received measLen (measEncode f) rest s).buf = f := holds_measFields hheld
  have hdone := frameDone_meas (s := received measLen (measEncode f) rest s) he
  rw [hfields] at hdone
  exact ⟨_, _, _, _, hrun.trans ((validate_measFrame hheld).trans (congrArg _ hdone))⟩

/-- A receive phase that awaits an acknowledgement and meets it completes the operation. -/
theorem run_acknowledgement {s : State} {rest : List RxAnswer} (hc : s.cfg.WF) (he : s.expect = .ack)
    (hcmd : s.expCmd ≠ .requestRead) (h : Hunting s (byteDraws (ackFrame s.cfg s.expCmd) ++ rest)) : ∃ d i l m,
      run (4 + s.cfg.ackLen.toNat) s =
        .next (complete none (modeUpdate s.expCmd (withDecoder d i l m { s with rxStream := rest }))) := by
  have h2 := two_le_of_legal hc (.inr rfl)
  have hfits := hc.payload_fits (mem_acked hcmd)
  obtain ⟨hrun, hheld⟩ := run_frame (p := s.cfg.ackPayload.get s.expCmd) hc h (.inr rfl) (by rw [hfits]; omega)
  exact ⟨_, _, _, _, hrun.trans (validate_awaited (s := received ..) hc he hcmd hheld)⟩

/-- Settles O36: a whole frame is stored, held, validated and delivered. -/
theorem receivePhaseRoundTrip : Obligations.ReceivePhaseRoundTrip := by
  intro s f rest hc he h
  obtain ⟨d, i, l, m, hrun⟩ := run_measurement hc he (.of_receiving h)
  obtain ⟨hf, -⟩ := h
  exact ⟨_, hrun, rfl, rfl, rfl, rfl, rfl, rfl, rfl, rfl, rfl, rfl, rfl, hf, rfl⟩

/-- Settles O37: by induction over the noise the phase is still hunting at its end, and the frame's own 42 is taken from either
state of the hunt. -/
theorem noiseWithoutAHeaderIsDiscarded : Obligations.NoiseWithoutAHeaderIsDiscarded := by
  intro s p f rest hc he hp h
  have hhunt := Hunting.of_receiving h
  obtain ⟨-, -, -, hd0, -⟩ := h
  rw [byteDraws, List.map_append, List.append_assoc] at hhunt
  obtain ⟨d, hnoise, hframe⟩ := run_noise hhunt hp fun hd => by simp [hd0] at hd
  obtain ⟨d', i, l, m, hrun⟩ := run_measurement (s := { s with rxStream := byteDraws (measEncode f) ++ rest, decState := d })
    hc he hframe
  exact ⟨_, (run_add hnoise).trans hrun, rfl, rfl, rfl, rfl⟩

/-- Settles O39: the fourth byte completes a length that LenCheck refuses. -/
theorem illegalLengthEndsAfterFourBytes : Obligations.IllegalLengthEndsAfterFourBytes := by
  intro s b2 b3 rest hc hmeas hack h
  exact ⟨_, run_head_illegal (.of_receiving h) ⟨hmeas, hack⟩, rfl, rfl, rfl, rfl, rfl, rfl⟩

/-! ### Single-bit errors -/

/-- Flipping a bit changes the byte. -/
theorem flip_ne {k : Nat} (hk : k < 8) (b : Byte) : b ^^^ (1#8 <<< k) ≠ b := by
  intro h
  have hbit := congrArg (BitVec.getLsbD · k) h
  simp [hk] at hbit

theorem modify_append_left {xs ys : List Byte} {i : Nat} {g : Byte → Byte} (h : i < xs.length) :
    (xs ++ ys).modify i g = xs.modify i g ++ ys := by
  induction xs generalizing i with
  | nil => nomatch h
  | cons x xs ih =>
    cases i with
    | zero => rfl
    | succ i => simpa using ih (by simpa using h)

theorem modify_append_right {xs ys : List Byte} {i : Nat} {g : Byte → Byte} (h : xs.length ≤ i) :
    (xs ++ ys).modify i g = xs ++ ys.modify (i - xs.length) g := by
  obtain ⟨j, rfl⟩ := Nat.exists_eq_add_of_le h
  rw [Nat.add_sub_cancel_left]
  exact List.modifyTailIdx_add _ j xs ys

/-- Changing one byte changes the sum of a frame too short to wrap. -/
theorem sum16_ne_of_modify {bs : List Byte} {i : Nat} {g : Byte → Byte} (hlen : bs.length ≤ 257) (hi : i < bs.length)
    (hg : ∀ b, g b ≠ b) : sum16 (bs.modify i g) ≠ sum16 bs := by
  intro h
  have hsum := congrArg BitVec.toNat h
  rw [toNat_sum16_of_length (by rwa [List.length_modify]), toNat_sum16_of_length hlen, List.modify_eq_take_cons_drop hi]
    at hsum
  conv_rhs at hsum => rw [← List.take_append_drop i bs, List.drop_eq_getElem_cons hi]
  simp only [plainSum_append, plainSum_cons] at hsum
  exact hg bs[i] (BitVec.eq_of_toNat_eq (by omega))

/-- A measurement frame with one byte behind its head changed is one with a wrong checksum. -/
theorem modify_measEncode (f : OutputFrame) {i : Nat} {g : Byte → Byte} (h4 : 4 ≤ i) (hi : i < 32) (hg : ∀ b, g b ≠ b) :
    ∃ p chk, (measEncode f).modify i g = rxHead measLen p ++ beBytes16 chk ∧ p.length = 26 ∧
      chk ≠ sum16 (rxHead measLen p) := by
  have hhead : ∀ p, (rxHead measLen p).modify i g = rxHead measLen (p.modify (i - 4) g) := fun p => by
    obtain ⟨j, rfl⟩ : ∃ j, i = j + 4 := ⟨i - 4, by omega⟩
    rfl
  have hlen : (rxHead measLen (fieldBytes f)).length = 30 := by simp
  rw [← measFrame_measSum, measFrame]
  by_cases h30 : i < 30
  · refine ⟨(fieldBytes f).modify (i - 4) g, measSum f, ?_, by simp, ?_⟩
    · rw [← hhead, modify_append_left (by rw [hlen]; exact h30)]
      rfl
    · rw [← hhead]
      exact (sum16_ne_of_modify (by rw [hlen]; decide) (by rw [hlen]; exact h30) hg).symm
  · obtain ⟨chk, hchk, hne⟩ : ∃ chk, (beBytes16 (measSum f)).modify (i - 30) g = beBytes16 chk ∧ chk ≠ measSum f := by
      obtain rfl | rfl : i = 30 ∨ i = 31 := by omega
      · refine ⟨be16 (g (hi8 (measSum f))) (lo8 (measSum f)), by simp [beBytes16], fun h => ?_⟩
        exact hg _ (by simpa using congrArg hi8 h)
      · refine ⟨be16 (hi8 (measSum f)) (g (lo8 (measSum f))), by simp [beBytes16], fun h => ?_⟩
        exact hg _ (by simpa using congrArg lo8 h)
    refine ⟨fieldBytes f, chk, ?_, length_fieldBytes f, hne⟩
    rw [modify_append_right (by rw [hlen]; omega), hlen, ← hchk]
    rfl

/-- Settles O38: the changed frame is held with a checksum that is not its sum, and Validate judges that first. -/
theorem singleBitErrorsAreDetected : Obligations.SingleBitErrorsAreDetected := by
  intro s f i k rest hc h4 hi hk h
  obtain ⟨p, chk, hbytes, hlen, hchk⟩ := modify_measEncode f h4 hi (flip_ne hk)
  rw [flipBit, hbytes] at h
  obtain ⟨hrun, hheld⟩ := run_frame hc (.of_receiving h) (.inl rfl) (by rw [hlen]; rfl)
  exact ⟨_, hrun.trans (validate_of_wrong_checksum (Nat.le_refl 32) hchk hheld), rfl, rfl, rfl, rfl, rfl⟩

end Sys2Proof.Machine

/-! ## Whole operations

An operation from its start to its done: the start hands its command to the transport, the transport's answer starts the
receive phase, and the frame that is awaited ends the operation (42_operations.md R170 to R175). -/

namespace Sys2Proof.Machine

/-- A start that an idle block meets is accepted. -/
theorem step_start_idle {s : State} {o : HostOp} {rest : List Input} (hf : s.fault = false) (hp : s.phase = .idle)
    (hin : s.inputs = .start o.code :: rest) : step s = .next (o.first { s with inputs := rest, op := o }) := by
  rw [step, nextEvent_start hf hp hin]
  exact (exec_code o _).trans (startOp_idle hf hp)

/-- An accepted send that a frame is to follow starts the receive phase, where the answer is held. -/
theorem step_send_accepted {s : State} {answers : List TxAnswer} (hf : s.fault = false) (hp : s.phase = .send)
    (hport : s.txPort = some (cmdFrame s.cfg s.op.command)) (ha : s.txAnswers = .ok :: answers)
    (hx : ¬ (s.expect = .ack ∧ s.cfg.ackExpected.get s.op.command = false)) :
    step s = .next (recvStart { s with
      txAnswers := answers, txPort := none, txLog := s.txLog ++ [(cmdFrame s.cfg s.op.command, .ok)] }) := by
  rw [step, nextEvent_send hf hp ha, exec_cmdInstr, cmdStep_answered hf hp hport ha]
  exact congrArg _ (sendAnswered_ok_awaited (s := { s with txAnswers := answers }) hx)

/-- The same where the answer is the next input. -/
theorem run_send_accepted {s : State} {rest : List Input} (hf : s.fault = false) (hp : s.phase = .send)
    (hport : s.txPort = some (cmdFrame s.cfg s.op.command)) (hin : s.inputs = .tx .ok :: rest) (ha : s.txAnswers = [])
    (hx : ¬ (s.expect = .ack ∧ s.cfg.ackExpected.get s.op.command = false)) :
    run 2 s = .next (recvStart { s with
      inputs := rest, txPort := none, txLog := s.txLog ++ [(cmdFrame s.cfg s.op.command, .ok)] }) := by
  have hdraw : nextEvent s = .txDraw .ok rest := by simp [nextEvent, nextInput, hf, hp, hin, ha]
  have harrive := step_txDraw hdraw
  rw [ha, List.nil_append] at harrive
  rw [run_cons harrive, run_one, step_send_accepted (s := { s with inputs := rest, txAnswers := [.ok] }) hf hp hport rfl hx,
    ← ha]

/-- The state in which an operation that expects `e` from its accepted command starts to receive. -/
def awaiting (o : HostOp) (e : Shape) (c : Command) (inputs : List Input) (answers : List TxAnswer) (s : State) : State :=
  recvStart { s with
    op := o, expect := e, expCmd := c, inputs := inputs, txAnswers := answers, txPort := none
    txLog := s.txLog ++ [(cmdFrame s.cfg o.command, .ok)] }

/-- The operation is started, and its command sent and accepted, whether the answer is the next input or held already. -/
theorem run_to_awaiting {s : State} {o : HostOp} {e : Shape} {c : Command} {inputs : List Input} (hf : s.fault = false)
    (hp : s.phase = .idle) (hfirst : ∀ inputs', o.first { s with inputs := inputs', op := o } =
      sendPhase o.command { s with inputs := inputs', op := o, expect := e, expCmd := c })
    (hx : ¬ (e = .ack ∧ s.cfg.ackExpected.get o.command = false)) :
    (s.inputs = .start o.code :: .tx .ok :: inputs → s.txAnswers = [] →
      run 3 s = .next (awaiting o e c inputs s.txAnswers s)) ∧
    (∀ answers, s.inputs = .start o.code :: inputs → s.txAnswers = .ok :: answers →
      run 2 s = .next (awaiting o e c inputs answers s)) := by
  have sent : ∀ inputs', s.inputs = .start o.code :: inputs' → step s =
      .next (sendPhase o.command { s with inputs := inputs', op := o, expect := e, expCmd := c }) :=
    fun inputs' hin => hfirst inputs' ▸ step_start_idle hf hp hin
  refine ⟨fun hin ha => (run_cons (sent _ hin)).trans ?_, fun answers hin ha => (run_cons (sent _ hin)).trans ?_⟩
  · exact run_send_accepted hf rfl rfl rfl ha hx
  · rw [run_one]
    exact step_send_accepted hf rfl rfl ha hx

theorem hunting_awaiting {o : HostOp} {e : Shape} {c : Command} {inputs : List Input} {answers : List TxAnswer} {s : State}
    (hf : s.fault = false) (hm : s.buf.wf = true) : Hunting (awaiting o e c inputs answers s) s.rxStream :=
  ⟨hf, hm, rfl, .inl rfl, rfl⟩

/-! ### The mode operations -/

/-- A mode operation ends in the modes ModeUpdate gives for its command. -/
theorem modeOperationEnds_modeUpdate {o : HostOp} (hr : o ≠ .read) (hq : o ≠ .request) {s u : State} (h : KeepsMode s u) :
    modeOperationEnds o s (modeUpdate o.command u) := by
  obtain ⟨hreport, hpower⟩ := h
  cases o with
  | read => exact absurd rfl hr
  | request => exact absurd rfl hq
  | passive => exact ⟨rfl, hpower⟩
  | active => exact ⟨rfl, hpower⟩
  | sleep => exact ⟨hreport, rfl⟩
  | wake => exact ⟨hreport, rfl⟩

/-- The acknowledgement next on the stream ends the operation. -/
theorem run_awaiting_mode {s : State} {o : HostOp} {inputs : List Input} {answers : List TxAnswer} {rest : List RxAnswer}
    (hc : s.cfg.WF) (hm : s.buf.wf = true) (hr : o ≠ .read) (hq : o ≠ .request) (hf : s.fault = false)
    (hrx : s.rxStream = byteDraws (ackFrame s.cfg o.command) ++ rest) :
    ∃ t, run (4 + s.cfg.ackLen.toNat) (awaiting o .ack o.command inputs answers s) = .next t ∧ ModeOperationDone o s t ∧
      t.inputs = inputs ∧ t.txAnswers = answers ∧ t.rxStream = rest := by
  have hcmd : o.command ≠ .requestRead := by
    cases o with
    | read => exact absurd rfl hr
    | request => exact absurd rfl hq
    | _ => nofun
  have hhunt := hunting_awaiting (o := o) (e := .ack) (c := o.command) (inputs := inputs) (answers := answers) hf hm
  rw [hrx] at hhunt
  obtain ⟨d, i, l, m, hrun⟩ := run_acknowledgement (s := awaiting o .ack o.command inputs answers s) hc rfl hcmd hhunt
  refine ⟨_, hrun, ⟨?_, rfl, rfl, ?_, ?_, ?_⟩, ?_, ?_, ?_⟩
  · rw [complete_modeUpdate]
    exact modeOperationEnds_modeUpdate hr hq ⟨rfl, rfl⟩
  all_goals simp [awaiting, withDecoder]

/-- Settles O40: the operation sends its command, awaits its acknowledgement, and receives it. -/
theorem modeOperationsRunToTheirEnd : Obligations.ModeOperationsRunToTheirEnd := by
  intro s o inputs rest hc hm hr hq hx hf hp hrx
  have hfirst : ∀ inputs', o.first { s with inputs := inputs', op := o } =
      sendPhase o.command { s with inputs := inputs', op := o, expect := .ack, expCmd := o.command } := by
    intro inputs'
    obtain ⟨h, -⟩ | ⟨⟨h, -⟩ | h, -⟩ | ⟨-, -, h⟩ := o.first_cases { s with inputs := inputs', op := o }
    · exact absurd h hr
    · exact absurd h hr
    · exact absurd h hq
    · exact h
  obtain ⟨arriving, held⟩ := run_to_awaiting (inputs := inputs) hf hp hfirst (by simp [hx])
  refine ⟨fun hin ha => ?_, fun answers hin ha => ?_⟩
  · rw [run_add (arriving hin ha), ha]
    exact run_awaiting_mode hc hm hr hq hf hrx
  · rw [run_add (held answers hin ha)]
    exact run_awaiting_mode hc hm hr hq hf hrx

/-! ### The measurement operations -/

/-- The measurement next on the stream ends the operation. -/
theorem run_awaiting_measurement {s : State} {o : HostOp} {f : OutputFrame} {inputs : List Input}
    {answers : List TxAnswer} {rest : List RxAnswer} (hc : s.cfg.WF) (hm : s.buf.wf = true) (hf : s.fault = false)
    (hrx : s.rxStream = byteDraws (measEncode f) ++ rest) :
    ∃ t, run 32 (awaiting o .meas s.expCmd inputs answers s) = .next t ∧
      MeasurementDone f [(cmdFrame s.cfg o.command, .ok)] s t ∧ t.inputs = inputs ∧ t.txAnswers = answers ∧
      t.rxStream = rest := by
  have hhunt := hunting_awaiting (o := o) (e := .meas) (c := s.expCmd) (inputs := inputs) (answers := answers) hf hm
  rw [hrx] at hhunt
  obtain ⟨d, i, l, m, hrun⟩ := run_measurement (s := awaiting o .meas s.expCmd inputs answers s) hc rfl hhunt
  exact ⟨_, hrun, ⟨rfl, rfl, rfl, rfl, rfl, rfl, rfl⟩, rfl, rfl, rfl⟩

/-- READ in Active mode receives the measurement next on the stream at once. -/
theorem run_read_active {s : State} {f : OutputFrame} {inputs : List Input} {rest : List RxAnswer} (hc : s.cfg.WF)
    (hm : s.buf.wf = true) (hf : s.fault = false) (hp : s.phase = .idle)
    (hrx : s.rxStream = byteDraws (measEncode f) ++ rest) (hmode : s.reportMode = .active)
    (hin : s.inputs = .start HostOp.read.code :: inputs) :
    ∃ t, run (1 + 32) s = .next t ∧ MeasurementDone f [] s t ∧ t.inputs = inputs ∧ t.txAnswers = s.txAnswers ∧
      t.rxStream = rest := by
  have hfirst : HostOp.read.first { s with inputs := inputs, op := .read } =
      recvStart { s with inputs := inputs, op := .read, expect := .meas } := if_pos hmode
  have hstart : run 1 s = .next _ := (run_one s).trans (hfirst ▸ step_start_idle hf hp hin)
  obtain ⟨d, i, l, m, hrun⟩ := run_measurement (s := recvStart { s with inputs := inputs, op := .read, expect := .meas })
    hc rfl ⟨hf, hm, rfl, .inl rfl, hrx⟩
  exact ⟨_, (run_add hstart).trans hrun, ⟨rfl, rfl, rfl, rfl, rfl, (List.append_nil _).symm, rfl⟩, rfl, rfl, rfl⟩

/-- Settles O41: READ in Active mode receives at once; the others send RequestRead, await a measurement, and receive it. -/
theorem measurementOperationsRunToTheirEnd : Obligations.MeasurementOperationsRunToTheirEnd := by
  intro s o f inputs rest hc hm hf hp hrx
  refine ⟨?_, fun ho => ?_⟩
  · rintro ⟨rfl, hmode⟩ hin
    exact run_read_active hc hm hf hp hrx hmode hin
  · have hcmd : o.command = .requestRead := by obtain rfl | ⟨rfl, -⟩ := ho <;> rfl
    have hfirst : ∀ inputs', o.first { s with inputs := inputs', op := o } =
        sendPhase o.command { s with inputs := inputs', op := o, expect := .meas, expCmd := s.expCmd } := by
      intro inputs'
      obtain ⟨hr, hactive, -⟩ | ⟨-, h⟩ | ⟨hr, hq, -⟩ := o.first_cases { s with inputs := inputs', op := o }
      · simp_all
      · exact h
      · tauto
    obtain ⟨arriving, held⟩ := run_to_awaiting (inputs := inputs) hf hp hfirst nofun
    rw [← hcmd]
    refine ⟨fun hin ha => ?_, fun answers hin ha => ?_⟩
    · rw [run_add (arriving hin ha), ha]
      exact run_awaiting_measurement hc hm hf hrx
    · rw [run_add (held answers hin ha)]
      exact run_awaiting_measurement hc hm hf hrx

end Sys2Proof.Machine

/-! ## What an instruction and a step can do

Every instruction is a start, a command frame or a received frame, and every step but a reset is of one of five kinds. The
laws that need no invariant follow: the fault mark, the order of the phases, the parameters and the buffer (10_state.md R21, R22,
R32, R34; 20_memory.md R50). -/

namespace Sys2Proof.Machine

/-! ### The instructions -/

/-- Every instruction stands on one of the three ports. -/
theorem instr_cases (i : Instr) :
    (∃ code, i = decodeHostOp code) ∨ (∃ c, i = cmdInstr c) ∨ i.port = .rx := by
  cases i with
  | read => exact .inl ⟨0, rfl⟩
  | request => exact .inl ⟨1, rfl⟩
  | passive => exact .inl ⟨2, rfl⟩
  | active => exact .inl ⟨3, rfl⟩
  | sleep => exact .inl ⟨4, rfl⟩
  | wake => exact .inl ⟨5, rfl⟩
  | reservedOp6 => exact .inl ⟨6, rfl⟩
  | reservedOp7 => exact .inl ⟨7, rfl⟩
  | cmdEnterPassive => exact .inr (.inl ⟨.enterPassive, rfl⟩)
  | cmdEnterActive => exact .inr (.inl ⟨.enterActive, rfl⟩)
  | cmdRequestRead => exact .inr (.inl ⟨.requestRead, rfl⟩)
  | cmdSleep => exact .inr (.inl ⟨.sleep, rfl⟩)
  | cmdWake => exact .inr (.inl ⟨.wake, rfl⟩)
  | _ => exact .inr (.inr rfl)

/-- With the fault mark set every instruction is refused (log 24). -/
theorem exec_faulted (i : Instr) {s : State} (hf : s.fault = true) : exec i s = .refused .faulted := by
  obtain ⟨code, rfl⟩ | ⟨c, rfl⟩ | hport := instr_cases i
  · obtain ⟨o, rfl⟩ | hreserved := code_cases code
    · rw [exec_code]
      exact unlessFaulted_set hf
    · rw [exec_reserved hreserved]
      exact unlessFaulted_set hf
  · rw [exec_cmdInstr]
    exact unlessFaulted_set hf
  · rw [exec_rx hport]
    exact unlessFaulted_set hf

/-- What a command frame with a next state has done. -/
theorem cmdStep_eq_next {c : Command} {s t : State} (h : cmdStep c s = .next t) :
    t = s ∨ ∃ a rest, s.phase = .send ∧ s.txAnswers = a :: rest ∧ t = sendAnswered c a { s with txAnswers := rest } := by
  obtain ⟨hf, -⟩ := unlessFaulted_eq_next h
  obtain ⟨a, rest, hp, -, ha, hs⟩ | ⟨-, hs⟩ := cmdStep_cases (c := c) hf <;> rw [hs] at h <;> cases h
  · exact .inr ⟨a, rest, hp, ha, rfl⟩
  · exact .inl rfl

/-- What a received frame with a next state has done. -/
theorem rxFrame_eq_next {bytes : List Byte} {s t : State} (h : rxFrame bytes s = .next t) :
    validate s = .next t ∨ t = { s with rxStream := s.rxStream ++ byteDraws bytes } := by
  obtain ⟨-, h⟩ := unlessFaulted_eq_next h
  split at h
  · exact .inl h
  · cases h
    exact .inr rfl

/-- What the answer to a send leaves alone. -/
theorem sendAnswered_frame (c : Command) (a : TxAnswer) (s : State) : (sendAnswered c a s).cfg = s.cfg ∧
    (sendAnswered c a s).buf = s.buf ∧ (sendAnswered c a s).op = s.op ∧ (sendAnswered c a s).fault = s.fault := by
  obtain ⟨-, h⟩ | ⟨-, -, -, h⟩ | ⟨-, -, h⟩ := sendAnswered_cases c a s <;> rw [h] <;> simp

/-- The answer to a send ends the send phase. -/
theorem sendAnswered_phase (c : Command) (a : TxAnswer) (s : State) :
    (sendAnswered c a s).phase = .recv ∨ (sendAnswered c a s).phase = .idle := by
  obtain ⟨-, h⟩ | ⟨-, -, -, h⟩ | ⟨-, -, h⟩ := sendAnswered_cases c a s <;> rw [h] <;> simp

/-- What Validate leaves alone: it ends the operation. -/
theorem validate_frame {s t : State} (h : validate s = .next t) :
    t.cfg = s.cfg ∧ t.buf = s.buf ∧ t.op = s.op ∧ t.fault = s.fault ∧ t.phase = .idle := by
  obtain ⟨e, rfl⟩ | ⟨-, f, rfl⟩ | ⟨-, rfl⟩ := validate_eq_next h <;> simp

/-- A start sets the mark, while busy or of a reserved code, or is accepted. -/
theorem start_marked_or_accepted {s t : State} {code : BitVec 3} (hf : s.fault = false)
    (h : exec (decodeHostOp code) s = .next t) :
    ((s.phase ≠ .idle ∨ code = 6 ∨ code = 7) ∧ t = { s with fault := true }) ∨
    (∃ o : HostOp, code = o.code ∧ s.phase = .idle ∧ t = o.first { s with op := o }) := by
  obtain ⟨o, rfl⟩ | hreserved := code_cases code
  · rw [exec_code] at h
    by_cases hp : s.phase = .idle
    · rw [startOp_idle hf hp] at h
      cases h
      exact .inr ⟨o, rfl, hp, rfl⟩
    · rw [startOp_busy hf hp] at h
      cases h
      exact .inl ⟨.inl hp, rfl⟩
  · rw [exec_reserved hreserved, startReserved_eq hf] at h
    cases h
    exact .inl ⟨.inr hreserved, rfl⟩

/-- What a start leaves alone. -/
theorem start_frame {s t : State} {code : BitVec 3} (h : exec (decodeHostOp code) s = .next t) :
    t.cfg = s.cfg ∧ t.buf = s.buf := by
  obtain ⟨hf, -⟩ := start_cases h
  obtain ⟨-, rfl⟩ | ⟨o, -, -, rfl⟩ := start_marked_or_accepted hf h <;> simp

/-- No instruction writes the parameters or the buffer. -/
theorem exec_frame {i : Instr} {s t : State} (h : exec i s = .next t) : t.cfg = s.cfg ∧ t.buf = s.buf := by
  obtain ⟨code, rfl⟩ | ⟨c, rfl⟩ | hport := instr_cases i
  · exact start_frame h
  · rw [exec_cmdInstr] at h
    obtain rfl | ⟨a, rest, -, -, rfl⟩ := cmdStep_eq_next h
    · exact ⟨rfl, rfl⟩
    · obtain ⟨hcfg, hbuf, -⟩ := sendAnswered_frame c a { s with txAnswers := rest }
      exact ⟨hcfg, hbuf⟩
  · rw [exec_rx hport] at h
    obtain hv | rfl := rxFrame_eq_next h
    · obtain ⟨hcfg, hbuf, -⟩ := validate_frame hv
      exact ⟨hcfg, hbuf⟩
    · exact ⟨rfl, rfl⟩

/-- Settles O55: the buffer of the next state is the same one. -/
theorem noInstructionStoresToTheBuffer : Obligations.NoInstructionStoresToTheBuffer := by
  intro i s t h a
  obtain ⟨-, hbuf⟩ := exec_frame h
  rw [hbuf]

/-! ### The steps -/

/-- What the check of a complete frame can do. -/
theorem runFrame_eq_next {s t : State} (h : runFrame s = .next t) :
    t = { s with rxStream := t.rxStream } ∨ validate s = .next t := by
  unfold runFrame at h
  split at h
  · split at h
    case h_1 i hi =>
      rw [exec_rx (port_of_fetchFrame hi)] at h
      obtain hv | rfl := rxFrame_eq_next h
      · exact .inr hv
      · exact .inl rfl
    case h_2 => exact .inr h
  · cases h
    exact .inl rfl

/-- What the answer to a pull leaves alone, under any parameters. -/
theorem pull_frame {a : RxAnswer} {s t : State} (h : andThen (recvAnswer a s) runFrame = .next t) :
    t.cfg = s.cfg ∧ t.op = s.op ∧ t.fault = s.fault ∧ (t.phase = s.phase ∨ t.phase = .idle) := by
  obtain ⟨u, hu, h⟩ := andThen_eq_next h
  have before : u.cfg = s.cfg ∧ u.op = s.op ∧ u.fault = s.fault ∧ (u.phase = s.phase ∨ u.phase = .idle) := by
    obtain ⟨d, i, l, m, rfl | ⟨e, rfl⟩⟩ := recvAnswer_cases hu <;> simp [withDecoder]
  obtain ⟨hcfg, hop, hf, hp⟩ := before
  obtain ht | hv := runFrame_eq_next h
  · rw [ht]
    exact ⟨hcfg, hop, hf, hp⟩
  · obtain ⟨hcfg', -, hop', hf', hp'⟩ := validate_frame hv
    exact ⟨hcfg'.trans hcfg, hop'.trans hop, hf'.trans hf, .inr hp'⟩

/-- What a step from `s` to `t` that is no reset has done. -/
inductive StepKind (s t : State) : Prop
  /-- An answer or a byte has arrived or was dropped, or the block has waited. -/
  | quiet (h : t = { s with inputs := t.inputs, txAnswers := t.txAnswers, rxStream := t.rxStream })
      (hrx : t.rxStream = s.rxStream ∨ ∃ a, t.rxStream = s.rxStream ++ [a] ∧ s.inputs = .rx a :: t.inputs)
  /-- A start while busy or of a reserved code has set the fault mark (R160). -/
  | marked (code : BitVec 3) (rest : List Input) (hev : nextEvent s = .start code rest)
      (hbad : s.phase ≠ .idle ∨ code = 6 ∨ code = 7) (h : t = { s with inputs := rest, fault := true })
  /-- A start was accepted (R160). -/
  | started (o : HostOp) (rest : List Input) (hev : nextEvent s = .start o.code rest) (hp : s.phase = .idle)
      (h : t = o.first { s with inputs := rest, op := o })
  /-- The send was answered (R163). -/
  | answered (a : TxAnswer) (rest : List TxAnswer) (hp : s.phase = .send) (ha : s.txAnswers = a :: rest)
      (h : t = sendAnswered s.op.command a { s with txAnswers := rest })
  /-- The pull was answered (R107). -/
  | pulled (a : RxAnswer) (rest : List RxAnswer) (hf : s.fault = false) (hp : s.phase = .recv) (hr : s.rxStream = a :: rest)
      (h : andThen (recvAnswer a { s with rxStream := rest }) runFrame = .next t)

/-- Every step but a reset is of one of the five kinds. -/
theorem stepKind {s t : State} (hr : NoReset s) (h : step s = .next t) : StepKind s t := by
  obtain ⟨-, hs⟩ | ⟨rest, hev, -⟩ | ⟨-, hs⟩ | ⟨a, rest, hev, hs⟩ | ⟨code, rest, hev, hs⟩ | ⟨a, rest, -, hs⟩ |
    ⟨a, rest, hev, hs⟩ | ⟨rest, -, hs⟩ | ⟨-, hs⟩ := step_cases s
  · cases hs ▸ h
  · exact absurd hev (hr rest)
  · obtain rfl | ⟨a, rest, hp, ha, rfl⟩ := cmdStep_eq_next (hs ▸ h)
    · exact .quiet rfl (.inl rfl)
    · exact .answered a rest hp ha rfl
  · obtain ⟨hf, hp, hrx⟩ := event_rxAnswered hev
    exact .pulled a rest hf hp hrx (hs ▸ h)
  · obtain ⟨hf, -⟩ := event_start hev
    obtain ⟨hbad, rfl⟩ | ⟨o, rfl, hp, rfl⟩ := start_marked_or_accepted (s := { s with inputs := rest }) hf (hs ▸ h)
    · exact .marked code rest hev hbad rfl
    · exact .started o rest hev hp rfl
  · cases hs ▸ h
    exact .quiet rfl (.inl rfl)
  · obtain ⟨-, hin, -⟩ := event_rxDraw hev
    cases hs ▸ h
    exact .quiet rfl (.inr ⟨a, rfl, hin⟩)
  · cases hs ▸ h
    exact .quiet rfl (.inl rfl)
  · cases hs ▸ h
    exact .quiet rfl (.inl rfl)

/-- A step is a reset, or of one of the five kinds. -/
theorem reset_or_stepKind {s t : State} (h : step s = .next t) :
    (∃ rest, s.inputs = .reset :: rest ∧ t = resetBlock { s with inputs := rest }) ∨ StepKind s t := by
  by_cases hr : NoReset s
  · exact .inr (stepKind hr h)
  · obtain ⟨rest, hev⟩ : ∃ rest, nextEvent s = .reset rest := by simpa [NoReset] using hr
    rw [step_of_reset hev] at h
    cases h
    exact .inl ⟨rest, event_reset hev, rfl⟩

/-- A step that is no reset keeps the fault mark, or sets it by a start while busy or of a reserved code. -/
theorem StepKind.fault_cases {s t : State} (h : StepKind s t) : t.fault = s.fault ∨
    ∃ code rest, nextEvent s = .start code rest ∧ (s.phase ≠ .idle ∨ code = 6 ∨ code = 7) := by
  cases h with
  | quiet h => exact .inl (by rw [h])
  | marked code rest hev hbad => exact .inr ⟨code, rest, hev, hbad⟩
  | started o rest hev hp h => exact .inl (by rw [h, first_fault])
  | answered a rest hp ha h =>
    obtain ⟨-, -, -, hf⟩ := sendAnswered_frame s.op.command a { s with txAnswers := rest }
    exact .inl (h ▸ hf)
  | pulled a rest hf hp hr h =>
    obtain ⟨-, -, hf', -⟩ := pull_frame h
    exact .inl hf'

/-- Settles O19: every row of the table is guarded by the mark, a faulted block has no event but a reset, and of the kinds of
step only a bad start sets the mark. -/
theorem faultedBlockTakesNoStepButReset : Obligations.FaultedBlockTakesNoStepButReset := by
  refine ⟨fun s i hf => exec_faulted i hf, fun s hf hr => step_faulted hf hr, fun s t h _ hr => ?_, fun s t h hf hf' => ?_⟩
  · by_contra hset
    rw [step_faulted (by simpa using hset) hr] at h
    cases h
  · obtain ⟨rest, -, rfl⟩ | kind := reset_or_stepKind h
    · cases hf'
    · obtain hsame | hbad := kind.fault_cases
      · rw [hsame, hf] at hf'
        cases hf'
      · exact hbad

/-- Settles O49: of the kinds of step an accepted start leaves IDLE with its operation in `op`, the answer to a send leaves SEND,
and the answer to a pull stays in RECV or ends in IDLE. -/
theorem phasesFollowTheirOrder : Obligations.PhasesFollowTheirOrder := by
  intro s t hr h
  cases stepKind hr h with
  | quiet h => exact ⟨fun hne => absurd (by rw [h]) hne, fun hne => absurd (by rw [h]) hne⟩
  | marked code rest hev hbad h => exact ⟨fun hne => absurd (by rw [h]) hne, fun hne => absurd (by rw [h]) hne⟩
  | started o rest hev hp h =>
    exact ⟨fun _ => .inl ⟨hp, o.code, rest, hev⟩, fun _ => ⟨hp, h ▸ first_phase_ne _ _⟩⟩
  | answered a rest hp ha h =>
    obtain ⟨-, -, hop, -⟩ := sendAnswered_frame s.op.command a { s with txAnswers := rest }
    exact ⟨fun _ => .inr (.inl ⟨hp, h ▸ sendAnswered_phase _ _ _⟩), fun hne => absurd (h ▸ hop) hne⟩
  | pulled a rest hf hp hr h =>
    obtain ⟨-, hop, -, hphase⟩ := pull_frame h
    exact ⟨fun hne => .inr (.inr ⟨hp, hphase.resolve_left hne⟩), fun hne => absurd hop hne⟩

/-- No step writes the parameters. -/
theorem step_cfg {s t : State} (h : step s = .next t) : t.cfg = s.cfg := by
  obtain ⟨rest, -, rfl⟩ | kind := reset_or_stepKind h
  · rfl
  · cases kind with
    | quiet h => rw [h]
    | marked code rest hev hbad h => rw [h]
    | started o rest hev hp h => rw [h, first_cfg]
    | answered a rest hp ha h =>
      obtain ⟨hcfg, -⟩ := sendAnswered_frame s.op.command a { s with txAnswers := rest }
      exact h ▸ hcfg
    | pulled a rest hf hp hr h =>
      obtain ⟨hcfg, -⟩ := pull_frame h
      exact hcfg

/-- Settles O52: a step keeps the parameters by its kind, and an instruction by its port. -/
theorem parametersNeverChange : Obligations.ParametersNeverChange :=
  ⟨fun _ _ h => step_cfg h, fun _ _ _ h => (exec_frame h).left⟩

end Sys2Proof.Machine

/-! ## The host's views

The bits of STATUS and the words of `out_frame` (10_state.md R30, R33; 30_encoding.md R85). -/

namespace Sys2Proof.Machine

/-- STATUS by its parts: FAULT, LAST_RESULT, FRAME_VALID, BUSY, POWER and REPORT (R33). -/
def statusWord (f : Bool) (c : BitVec 3) (v b p r : Bool) : BitVec 8 :=
  BitVec.ofBool f ++ c ++ BitVec.ofBool v ++ BitVec.ofBool b ++ BitVec.ofBool p ++ BitVec.ofBool r

theorem status_eq (s : State) : s.status = statusWord s.fault s.lastResult.code s.outValid (busy s) (powerBit s.powerMode)
    (reportBit s.reportMode) := rfl

/-- Each part stands at its bits. -/
theorem statusWord_bits (f : Bool) (c : BitVec 3) (v b p r : Bool) :
    (statusWord f c v b p r).getLsbD 0 = r ∧ (statusWord f c v b p r).getLsbD 1 = p ∧
    (statusWord f c v b p r).getLsbD 2 = b ∧ (statusWord f c v b p r).getLsbD 3 = v ∧
    (statusWord f c v b p r).extractLsb' 4 3 = c ∧ (statusWord f c v b p r).getLsbD 7 = f := by
  revert f c v b p r
  decide

theorem reportBit_iff (r : ReportMode) : reportBit r = true ↔ r = .passive := by cases r <;> decide

theorem powerBit_iff (p : PowerMode) : powerBit p = true ↔ p = .asleep := by cases p <;> decide

/-- A word of a delivered frame is the field of its index. -/
theorem readOutFrame_some {s : State} {f : OutputFrame} {i : Nat} {v : Half} (hout : s.outFrame = some f)
    (hv : f.fields[i]? = some v) : readOutFrame s i = .next v := by simp [readOutFrame, hout, hv]

/-- Settles O56: the parts of STATUS read back from the word, LAST_RESULT by each result's code, and a field list of 13 read by
index. -/
theorem statusAndOutFrameViews : Obligations.StatusAndOutFrameViews := by
  have parts := fun s : State => statusWord_bits s.fault s.lastResult.code s.outValid (busy s) (powerBit s.powerMode)
    (reportBit s.reportMode)
  refine ⟨fun s => ?_, fun s => ?_, fun s f i hout => ?_, fun s i hout => by simp [readOutFrame, hout]⟩
  · obtain ⟨hreport, hpower, hbusy, hvalid, hresult, hfault⟩ := parts s
    rw [status_eq, hreport, hpower, hbusy, hvalid, hresult, hfault]
    exact ⟨reportBit_iff _, powerBit_iff _, by simp [busy], by simp [State.outValid, Option.isSome_iff_ne_none], rfl, Iff.rfl⟩
  · obtain ⟨-, -, -, -, hresult, -⟩ := parts s
    rw [status_eq, hresult]
    refine ⟨?_, ?_, ?_, ?_, ?_, ?_, ?_⟩ <;> (intro h; rw [h]; rfl)
  · have hlen := f.length_eq
    refine ⟨fun v hv => readOutFrame_some hout hv, fun hi => ?_, fun hi => ?_⟩
    · exact ⟨f.fields[i], readOutFrame_some hout (List.getElem?_eq_getElem (by omega))⟩
    · simp [readOutFrame, hout, List.getElem?_eq_none (show f.fields.length ≤ i by omega)]

/-- Settles O8: STATUS evaluated after reset. -/
theorem statusAfterResetIs70 : Obligations.StatusAfterResetIs70 := by
  unfold Obligations.StatusAfterResetIs70
  decide

end Sys2Proof.Machine

/-! ## The invariant

The invariant holds after reset, and every step from it has a next state that meets it: case by case over the kinds of step, the
pulled byte by the decoder's state (10_state.md R26 to R28, 40_decoder.md R102 to R106). -/

namespace Sys2Proof.Machine

/-! ### Where no request is outstanding, and where only the transport has moved -/

/-- An idle block with nothing on the transmit port meets the invariant. -/
theorem Inv.of_idle {s : State} (hc : s.cfg.WF) (hm : s.buf.wf = true) (hi : s.decIdx ≤ bufSize) (hp : s.phase = .idle)
    (hport : s.txPort = none) : Inv s where
  cfg_wf := hc
  buf_wf := hm
  idx_le := hi
  port := by simp [hp, hport]
  expects := fun h => absurd hp h
  quiet := fun h => by cases hp ▸ h
  decoder := fun h => by cases hp ▸ h

/-- So does an operation that has ended with its ModeUpdate. -/
theorem Inv.of_modeUpdate {c : Command} {r : Option OutputFrame} {s : State} (hc : s.cfg.WF) (hm : s.buf.wf = true)
    (hi : s.decIdx ≤ bufSize) (hport : s.txPort = none) : Inv (complete r (modeUpdate c s)) :=
  .of_idle (by simpa using hc) (by simpa using hm) (by simpa using hi) rfl (by simpa using hport)

theorem inv_resetBlock {s : State} (hc : s.cfg.WF) : Inv (resetBlock s) := .of_idle hc rfl (Nat.zero_le _) rfl rfl

/-- Settles O42: the reset state is idle. -/
theorem resetMeetsTheInvariant : Obligations.ResetMeetsTheInvariant := by
  have reset : ∀ cfg : Config, cfg.WF → Inv (State.resetWith cfg) :=
    fun _ hc => .of_idle hc rfl (Nat.zero_le _) rfl rfl
  exact ⟨reset, reset _ (by unfold Config.WF; decide)⟩

/-- The invariant does not look at the transport's answers, the inputs or the fault mark. -/
theorem Inv.of_transport {s : State} (hi : Inv s) (ins : List Input) (as : List TxAnswer) (st : List RxAnswer) (f : Bool) :
    Inv { s with inputs := ins, txAnswers := as, rxStream := st, fault := f } :=
  ⟨hi.cfg_wf, hi.buf_wf, hi.idx_le, hi.port, hi.expects, hi.quiet, hi.decoder⟩

/-- While an operation runs, a measurement is expected exactly by READ and REQUEST. -/
theorem Inv.expect_meas_iff {s : State} (hi : Inv s) (hp : s.phase ≠ .idle) :
    s.expect = .meas ↔ s.op = .read ∨ s.op = .request := by
  have hop := hi.expects hp
  unfold ExpectsItsOp at hop
  cases ho : s.op <;> simp_all

/-! ### A start -/

/-- An operation expects what its start has set (42_operations.md R170 to R175). -/
theorem first_expectsItsOp (o : HostOp) (s : State) : ExpectsItsOp (o.first { s with op := o }) := by
  obtain ⟨rfl, -, h⟩ | ⟨⟨rfl, -⟩ | rfl, h⟩ | ⟨hr, hq, h⟩ := o.first_cases { s with op := o } <;> rw [h]
  · exact rfl
  · exact rfl
  · exact rfl
  · cases o with
    | read => exact absurd rfl hr
    | request => exact absurd rfl hq
    | _ => exact ⟨rfl, rfl⟩

/-- An accepted start meets the invariant. -/
theorem inv_first {s : State} (hi : Inv s) (hp : s.phase = .idle) (o : HostOp) : Inv (o.first { s with op := o }) := by
  have hport : s.txPort = none := hi.port_other (by simp [hp])
  have hexpects := first_expectsItsOp o s
  obtain ⟨rfl, hm, h⟩ | ⟨hread, h⟩ | ⟨hr, -, h⟩ := o.first_cases { s with op := o } <;> rw [h] at hexpects ⊢
  · exact ⟨hi.cfg_wf, hi.buf_wf, Nat.zero_le _, hport, fun _ => hexpects, nofun, fun _ => rfl⟩
  · refine ⟨hi.cfg_wf, hi.buf_wf, hi.idx_le, rfl, fun _ => hexpects, fun _ (ho : o = .read) => ?_, nofun⟩
    obtain ⟨-, hm⟩ | rfl := hread
    · exact hm
    · cases ho
  · exact ⟨hi.cfg_wf, hi.buf_wf, hi.idx_le, rfl, fun _ => hexpects, fun _ ho => absurd ho hr, nofun⟩

/-! ### The answer to a send -/

/-- The answer to a send leads to an idle block or to the start of a receive phase. -/
theorem inv_sendAnswered {s : State} (hi : Inv s) (hp : s.phase = .send) (c : Command) (a : TxAnswer) (rest : List TxAnswer) :
    Inv (sendAnswered c a { s with txAnswers := rest }) := by
  obtain ⟨-, h⟩ | ⟨-, -, -, h⟩ | ⟨-, -, h⟩ := sendAnswered_cases c a { s with txAnswers := rest } <;> rw [h]
  · exact .of_idle hi.cfg_wf hi.buf_wf hi.idx_le rfl rfl
  · exact .of_modeUpdate hi.cfg_wf hi.buf_wf hi.idx_le rfl
  · exact ⟨hi.cfg_wf, hi.buf_wf, Nat.zero_le _, rfl, fun _ => hi.expects (by simp [hp]), nofun, fun _ => rfl⟩

/-! ### The answer to a pull -/

/-- What the answer to a pull has done once the decoder's registers are written, in `v`. -/
inductive PullOutcome (v t : State) : Prop
  /-- The receive phase goes on. -/
  | waits (hd : DecoderOk v) (h : t = v)
  /-- It ends with an error of a pull or a frame. -/
  | fails (e : ErrorKind) (he : e ≠ .sendFailed) (h : t = raise e v)
  /-- It ends with the measurement expected. -/
  | delivers (f : OutputFrame) (he : v.expect = .meas) (h : t = complete (some f) { v with outFrame := some f })
  /-- It ends with the acknowledgement awaited. -/
  | acknowledges (he : v.expect = .ack) (h : t = complete none (modeUpdate v.expCmd v))

/-- The step from `s` that leaves `rest` on the stream has a next state, with the buffer still canonical and its index inside. -/
def PullSucceeds (s : State) (rest : List RxAnswer) : Prop :=
  ∃ d i l m t, step s = .next t ∧ m.wf = true ∧ i ≤ bufSize ∧ PullOutcome (withDecoder d i l m { s with rxStream := rest }) t

/-- A frame that fits the buffer is validated to one of the ends of an operation (R106, R162). -/
theorem validate_outcome {v : State} (hfit : frameLen v ≤ bufSize) : ∃ t, validate v = .next t ∧ PullOutcome v t := by
  obtain ⟨hlong, -⟩ | ⟨-, -, h⟩ | ⟨-, -, h⟩ := validate_cases v
  · omega
  · exact ⟨_, h, .fails .checksumError nofun rfl⟩
  · obtain ⟨he, -, hd⟩ | ⟨he, -, -, hd⟩ | ⟨-, hd⟩ := frameDone_cases (shapeOf v.decLen) v
    · exact ⟨_, h, .delivers _ he hd⟩
    · exact ⟨_, h, .acknowledges he hd⟩
    · exact ⟨_, h, .fails .incorrectResponse nofun hd⟩

section
variable {s : State} {b : Byte} {rest : List RxAnswer} (hi : Inv s) (hf : s.fault = false) (hp : s.phase = .recv)
  (hr : s.rxStream = .byte b :: rest)
include hi hf hp hr

/-- A byte of the hunt is discarded, or ends the hunt with the header in the buffer. -/
theorem pullSucceeds_hunt (hd : s.decState = .hunt0 ∨ s.decState = .hunt1) : PullSucceeds s rest := by
  have hidx := (decoderOk_hunt hd).1 (hi.decoder hp)
  by_cases hend : s.decState = .hunt1 ∧ b = hdr1
  · obtain ⟨hd1, rfl⟩ := hend
    have hm0 : (s.buf.write 0 hdr0).wf = true := write_keeps_wf hi.buf_wf (by decide)
    obtain ⟨h0, h1, -⟩ := read_takeHeader_buf hi.buf_wf
    have hstep := step_byte hf hp hr (decByte_hunt1_hdr1 (s := { s with rxStream := rest }) hd1) nofun
    exact ⟨.len, _, _, _, _, hstep, write_keeps_wf hm0 (by decide), by decide, .waits ⟨.inl rfl, h0, h1⟩ rfl⟩
  · have hhunt : Hunting s (.byte b :: rest) := ⟨hf, hi.buf_wf, hp, hd, hr⟩
    have hstep := step_hunt hhunt fun hd1 hb => hend ⟨hd1, hb⟩
    exact ⟨_, _, _, _, _, hstep, hi.buf_wf, hi.idx_le, .waits ((decoderOk_hunt hhunt.discard.hunt).2 hidx) rfl⟩

/-- A length byte is stored, and the second one is judged. -/
theorem pullSucceeds_len (hd : s.decState = .len) : PullSucceeds s rest := by
  obtain ⟨hidx, hh⟩ := (decoderOk_len hd).1 (hi.decoder hp)
  have hm3 : (s.buf.write 3 b).wf = true := write_keeps_wf hi.buf_wf (by decide)
  obtain hidx | hidx := hidx
  · have hheld := headerHeld_write hi.buf_wf (Nat.le_refl 2) b hh
    exact ⟨.len, _, _, _, _, (step_len_first hf hp hr hd hidx).trans (by rw [← hd]; rfl), write_keeps_wf hi.buf_wf (by decide),
      by decide, .waits ⟨.inr rfl, hheld⟩ rfl⟩
  · by_cases hl : be16 (s.buf.read 2) b = measLen ∨ be16 (s.buf.read 2) b = s.cfg.ackLen
    · have h2 := two_le_of_legal hi.cfg_wf hl
      have hlen : (s.buf.write 3 b).read16 2 = be16 (s.buf.read 2) b := by
        rw [Memory.read16, read_write_other hi.buf_wf (by decide), read_write_same hi.buf_wf]
      have hlt : 4 < 4 + (be16 (s.buf.read 2) b).toNat := by omega
      have hheld := headerHeld_write hi.buf_wf (show 2 ≤ 3 by decide) b hh
      exact ⟨.body, _, _, _, _, step_len_legal hi.cfg_wf hf hi.buf_wf hp hr hd hidx hl, hm3, by decide,
        .waits ⟨hl, Nat.le_refl 4, hlt, hheld, hlen⟩ rfl⟩
    · exact ⟨_, _, _, _, _, step_len_illegal hf hi.buf_wf hp hr hd hidx (not_or.1 hl), hm3, by decide,
        .fails .incorrectResponse nofun rfl⟩

/-- A body byte is stored, and the last one's frame is validated. -/
theorem pullSucceeds_body (hd : s.decState = .body) : PullSucceeds s rest := by
  obtain ⟨hl, h4, hlt, hh, hlen⟩ := (decoderOk_body hd).1 (hi.decoder hp)
  have hfit := frameLen_le_bufSize hi.cfg_wf hl
  have hin : s.decIdx < bufSize := by omega
  have hm : (s.buf.write s.decIdx b).wf = true := write_keeps_wf hi.buf_wf hin
  by_cases hlast : s.decIdx + 1 = frameLen s
  · obtain ⟨t, hval, hout⟩ := validate_outcome (v := withDecoder s.decState (s.decIdx + 1) s.decLen
      (s.buf.write s.decIdx b) { s with rxStream := rest }) hfit
    exact ⟨_, _, _, _, t, (step_body_last hi.cfg_wf hf hp hr hd hin hlast).trans hval, hm, hin, hout⟩
  · have hheld := headerHeld_write hi.buf_wf (show 2 ≤ s.decIdx by omega) b hh
    have hlen' := (read16_write (b := b) hi.buf_wf (show s.decIdx < 2 ∨ 2 + 1 < s.decIdx by omega)).trans hlen
    have hlt' : s.decIdx + 1 < frameLen s := by omega
    exact ⟨.body, _, _, _, _, (step_body hf hp hr hd hin hlast).trans (by rw [← hd]; rfl), hm, hin,
      .waits ⟨hl, show 4 ≤ s.decIdx + 1 by omega, hlt', hheld, hlen'⟩ rfl⟩

end

/-- In a state of the invariant the answer to a pull has a next state. -/
theorem pullSucceeds {s : State} {a : RxAnswer} {rest : List RxAnswer} (hi : Inv s) (hf : s.fault = false)
    (hp : s.phase = .recv) (hr : s.rxStream = a :: rest) : PullSucceeds s rest := by
  cases a with
  | byte b =>
    cases hd : s.decState with
    | hunt0 => exact pullSucceeds_hunt hi hf hp hr (.inl hd)
    | hunt1 => exact pullSucceeds_hunt hi hf hp hr (.inr hd)
    | len => exact pullSucceeds_len hi hf hp hr hd
    | body => exact pullSucceeds_body hi hf hp hr hd
  | noResponse =>
    exact ⟨_, _, _, _, _, step_recv_raise hf hp hr rfl, hi.buf_wf, hi.idx_le, .fails .noResponse nofun rfl⟩
  | readFailed =>
    exact ⟨_, _, _, _, _, step_recv_raise hf hp hr rfl, hi.buf_wf, hi.idx_le, .fails .readFailed nofun rfl⟩

/-- What the answer to a pull has done, in a state of the invariant. -/
theorem pull_outcome {s t : State} {a : RxAnswer} {rest : List RxAnswer} (hi : Inv s) (hf : s.fault = false)
    (hp : s.phase = .recv) (hr : s.rxStream = a :: rest)
    (h : andThen (recvAnswer a { s with rxStream := rest }) runFrame = .next t) :
    ∃ d i l m, m.wf = true ∧ i ≤ bufSize ∧ PullOutcome (withDecoder d i l m { s with rxStream := rest }) t := by
  obtain ⟨d, i, l, m, t', hstep, hm, hidx, hout⟩ := pullSucceeds hi hf hp hr
  rw [step_recv hf hp hr, h] at hstep
  cases hstep
  exact ⟨d, i, l, m, hm, hidx, hout⟩

/-- The answer to a pull keeps the invariant. -/
theorem inv_pulled {s t : State} {rest : List RxAnswer} {d : DecState} {i : Nat} {l : Half} {m : Memory} (hi : Inv s)
    (hp : s.phase = .recv) (hm : m.wf = true) (hidx : i ≤ bufSize)
    (h : PullOutcome (withDecoder d i l m { s with rxStream := rest }) t) : Inv t := by
  have hport : s.txPort = none := hi.port_other (by simp [hp])
  cases h with
  | waits hd h =>
    rw [h]
    exact ⟨hi.cfg_wf, hm, hidx, hi.port, hi.expects, hi.quiet, fun _ => hd⟩
  | fails e he h =>
    rw [h]
    exact .of_idle hi.cfg_wf hm hidx rfl hport
  | delivers f he h =>
    rw [h]
    exact .of_idle hi.cfg_wf hm hidx rfl hport
  | acknowledges he h =>
    rw [h]
    exact .of_modeUpdate hi.cfg_wf hm hidx hport

/-! ### Every step -/

/-- Settles O43: a reset leaves an idle block, and each kind of step keeps the invariant. -/
theorem stepKeepsTheInvariant : Obligations.StepKeepsTheInvariant := by
  intro s t hi h
  obtain ⟨rest, -, rfl⟩ | kind := reset_or_stepKind h
  · exact inv_resetBlock hi.cfg_wf
  · cases kind with
    | quiet h => exact h ▸ hi.of_transport t.inputs t.txAnswers t.rxStream s.fault
    | marked code rest hev hbad h => exact h ▸ hi.of_transport rest s.txAnswers s.rxStream true
    | started o rest hev hp h => exact h ▸ inv_first (hi.of_transport rest s.txAnswers s.rxStream s.fault) hp o
    | answered a rest hp ha h => exact h ▸ inv_sendAnswered hi hp s.op.command a rest
    | pulled a rest hf hp hr h =>
      obtain ⟨d, i, l, m, hm, hidx, hout⟩ := pull_outcome hi hf hp hr h
      exact inv_pulled hi hp hm hidx hout

/-- Only a faulted block is stopped. -/
theorem event_stopped {s : State} (h : nextEvent s = .stopped) : s.fault = true := by
  by_contra hf
  unfold nextEvent nextInput at h
  rw [if_neg hf] at h
  repeat' split at h
  all_goals cases h

/-- A start of a block with no fault mark has a next state. -/
theorem exec_start_next {s : State} (hf : s.fault = false) (code : BitVec 3) :
    ∃ t, exec (decodeHostOp code) s = .next t := by
  obtain ⟨o, rfl⟩ | hreserved := code_cases code
  · rw [exec_code]
    exact ⟨_, unlessFaulted_clear hf⟩
  · rw [exec_reserved hreserved]
    exact ⟨_, startReserved_eq hf⟩

/-- Settles O44: a block with no fault mark is not stopped, and the one event that could fault is the answer to a pull, which
the invariant makes succeed. -/
theorem invariantStepAlwaysHasANextState : Obligations.InvariantStepAlwaysHasANextState := by
  intro s hi hf
  obtain ⟨hev, -⟩ | ⟨rest, -, hs⟩ | ⟨-, hs⟩ | ⟨a, rest, hev, -⟩ | ⟨code, rest, -, hs⟩ | ⟨a, rest, -, hs⟩ |
    ⟨a, rest, -, hs⟩ | ⟨rest, -, hs⟩ | ⟨-, hs⟩ := step_cases s
  · rw [event_stopped hev] at hf
    cases hf
  · exact ⟨_, hs⟩
  · obtain ⟨a, rest, -, -, -, hc⟩ | ⟨-, hc⟩ := cmdStep_cases (c := s.op.command) hf <;> exact ⟨_, hs.trans hc⟩
  · obtain ⟨-, hp, hr⟩ := event_rxAnswered hev
    obtain ⟨d, i, l, m, t, hstep, -⟩ := pullSucceeds hi hf hp hr
    exact ⟨t, hstep⟩
  · rw [hs]
    exact exec_start_next (s := { s with inputs := rest }) hf code
  all_goals exact ⟨_, hs⟩

end Sys2Proof.Machine

/-! ## Laws of every step

What a step from the invariant can end, send, pull and deliver, by the kinds of step (10_state.md R30, R31; 20_memory.md R59;
30_encoding.md R81; 42_operations.md R177; 60_exceptions.md R201). -/

namespace Sys2Proof.Machine

/-- Settles O46: of the kinds of step only a failed send and a failed pull end in an error, each through `raise`. -/
theorem failedOperationWritesOnlyItsResult : Obligations.FailedOperationWritesOnlyItsResult := by
  intro s t e hi h hlog
  obtain ⟨rest, -, rfl⟩ | kind := reset_or_stepKind h
  · simp at hlog
  cases kind with
  | quiet h =>
    rw [h] at hlog
    simp at hlog
  | marked code rest hev hbad h =>
    rw [h] at hlog
    simp at hlog
  | started o rest hev hp h =>
    rw [h, first_doneLog] at hlog
    simp at hlog
  | answered a rest hp ha h =>
    obtain ⟨rfl, hs⟩ | ⟨-, -, -, hs⟩ | ⟨-, -, hs⟩ := sendAnswered_cases s.op.command a { s with txAnswers := rest } <;>
      rw [hs] at h <;> subst h
    · obtain rfl : e = .sendFailed := by simpa using hlog.symm
      exact ⟨rfl, rfl, rfl, rfl, rfl, rfl, rfl, rfl, rfl, rfl, rfl, rfl, rfl, .inl ⟨hp, rfl, ha, rfl, rfl⟩⟩
    · simp at hlog
    · simp at hlog
  | pulled a rest hf hp hr h =>
    obtain ⟨d, i, l, m, -, -, hout⟩ := pull_outcome hi hf hp hr h
    cases hout with
    | waits hd h =>
      rw [h] at hlog
      simp [withDecoder] at hlog
    | fails e' he h =>
      subst h
      obtain rfl : e = e' := by simpa [withDecoder] using hlog.symm
      exact ⟨rfl, rfl, rfl, rfl, rfl, rfl, rfl, rfl, rfl, rfl, rfl, hi.port_other (by simp [hp]), rfl,
        .inr ⟨hp, he, rfl, rfl, a, hr⟩⟩
    | delivers f he h =>
      rw [h] at hlog
      simp [withDecoder] at hlog
    | acknowledges he h =>
      rw [h] at hlog
      simp [withDecoder] at hlog

/-- Settles O47: of the kinds of step only a pull that delivers a measurement writes `out_frame`, and a measurement is expected
by READ and REQUEST alone. -/
theorem outFrameChangesOnlyOnSuccess : Obligations.OutFrameChangesOnlyOnSuccess := by
  intro s t hi hr h hne
  cases stepKind hr h with
  | quiet h => exact absurd (by rw [h]) hne
  | marked code rest hev hbad h => exact absurd (by rw [h]) hne
  | started o rest hev hp h => exact absurd (by rw [h, first_outFrame]) hne
  | answered a rest hp ha h =>
    refine absurd ?_ hne
    obtain ⟨-, hs⟩ | ⟨-, -, -, hs⟩ | ⟨-, -, hs⟩ := sendAnswered_cases s.op.command a { s with txAnswers := rest } <;>
      rw [h, hs] <;> simp
  | pulled a rest hf hp hr h =>
    obtain ⟨d, i, l, m, -, -, hout⟩ := pull_outcome hi hf hp hr h
    cases hout with
    | waits hd h => exact absurd (by rw [h]; rfl) hne
    | fails e he h => exact absurd (by rw [h]; rfl) hne
    | delivers f he h =>
      subst h
      exact ⟨(hi.expect_meas_iff (by simp [hp])).1 he, hp, rfl, rfl, f, rfl, rfl⟩
    | acknowledges he h => exact absurd (by rw [h]; simp [withDecoder]) hne

/-- No `done` is issued, and no operation ends. -/
def NoDone (s t : State) : Prop :=
  t.doneLog = s.doneLog ∧ t.lastResult = s.lastResult ∧ (s.phase = .idle ∨ t.phase ≠ .idle)

/-- One `done` is issued at the end of the operation, with the new `last_result` as its code (R31, R81). -/
def OneDone (s t : State) : Prop :=
  ∃ d, t.doneLog = s.doneLog ++ [d] ∧ d.code = t.lastResult ∧ d.code ≠ .none ∧ s.phase ≠ .idle ∧ t.phase = .idle ∧
    (d.frame.isSome ↔ d.code = .ok ∧ (s.op = .read ∨ s.op = .request))

/-- An operation that ends with an error issues its code and no frame. -/
theorem oneDone_raise {s u : State} (e : ErrorKind) (hp : s.phase ≠ .idle) (hlog : u.doneLog = s.doneLog) :
    OneDone s (raise e u) :=
  ⟨⟨.err e, none⟩, by simp [hlog], rfl, nofun, hp, rfl, by simp⟩

/-- An operation that ends successfully issues OK, and a frame where a measurement was expected. -/
theorem oneDone_complete {s u : State} (hi : Inv s) {r : Option OutputFrame} (hp : s.phase ≠ .idle)
    (hlog : u.doneLog = s.doneLog) (hr : r.isSome ↔ s.expect = .meas) : OneDone s (complete r u) :=
  ⟨⟨.ok, r⟩, by simp [hlog], rfl, nofun, hp, rfl, by rw [hr, hi.expect_meas_iff hp]; simp⟩

/-- Settles O48: of the kinds of step those that end in IDLE do so through `raise` or `complete`, and the others leave `doneLog`
alone. -/
theorem oneDoneForEachOperation : Obligations.OneDoneForEachOperation := by
  intro s t hi hr h
  show NoDone s t ∨ OneDone s t
  cases stepKind hr h with
  | quiet h =>
    rw [h]
    exact .inl ⟨rfl, rfl, eq_or_ne s.phase .idle⟩
  | marked code rest hev hbad h =>
    rw [h]
    exact .inl ⟨rfl, rfl, eq_or_ne s.phase .idle⟩
  | started o rest hev hp h => exact .inl ⟨by simp [h], by simp [h], .inl hp⟩
  | answered a rest hp ha h =>
    have hbusy : s.phase ≠ .idle := by simp [hp]
    obtain ⟨-, hs⟩ | ⟨-, he, -, hs⟩ | ⟨-, -, hs⟩ := sendAnswered_cases s.op.command a { s with txAnswers := rest } <;>
      rw [h, hs]
    · exact .inr (oneDone_raise _ hbusy rfl)
    · have hack : s.expect = .ack := he
      exact .inr (oneDone_complete hi hbusy (by simp) (by simp [hack]))
    · exact .inl ⟨rfl, rfl, .inr nofun⟩
  | pulled a rest hf hp hr h =>
    have hbusy : s.phase ≠ .idle := by simp [hp]
    obtain ⟨d, i, l, m, -, -, hout⟩ := pull_outcome hi hf hp hr h
    cases hout with
    | waits hd h =>
      rw [h]
      exact .inl ⟨rfl, rfl, .inr hbusy⟩
    | fails e he h => exact .inr (h ▸ oneDone_raise e hbusy rfl)
    | delivers f he h => exact .inr (h ▸ oneDone_complete hi hbusy rfl (iff_of_true rfl he))
    | acknowledges he h =>
      have hack : s.expect = .ack := he
      exact .inr (h ▸ oneDone_complete hi hbusy (by simp [withDecoder]) (by simp [hack]))

/-- The answer to a send is logged with the frame it answers. -/
theorem sendAnswered_txLog (c : Command) (a : TxAnswer) (s : State) :
    (sendAnswered c a s).txLog = s.txLog ++ [(cmdFrame s.cfg c, a)] ∧ (sendAnswered c a s).txAnswers = s.txAnswers := by
  obtain ⟨-, h⟩ | ⟨-, -, -, h⟩ | ⟨-, -, h⟩ := sendAnswered_cases c a s <;> rw [h] <;> simp

/-- The answer to a pull logs no send, and takes that answer from the stream and nothing else from outside. -/
theorem PullOutcome.ports {s t : State} {rest : List RxAnswer} {d : DecState} {i : Nat} {l : Half} {m : Memory}
    (h : PullOutcome (withDecoder d i l m { s with rxStream := rest }) t) :
    t.txLog = s.txLog ∧ t.rxStream = rest ∧ t.inputs = s.inputs := by
  cases h with
  | waits hd h => rw [h]; exact ⟨rfl, rfl, rfl⟩
  | fails e he h => rw [h]; exact ⟨rfl, rfl, rfl⟩
  | delivers f he h => rw [h]; exact ⟨rfl, rfl, rfl⟩
  | acknowledges he h => rw [h]; simp [withDecoder]

/-- Settles O50: of the kinds of step only the answer to a send leaves SEND and logs a send, and only an accepted start enters
SEND, whose next state meets the invariant. -/
theorem oneSendForEachSendPhase : Obligations.OneSendForEachSendPhase := by
  intro s t hi hr h
  cases stepKind hr h with
  | quiet h =>
    rw [h]
    exact ⟨fun hp hp' => absurd hp hp', fun _ => rfl, .inl⟩
  | marked code rest hev hbad h =>
    rw [h]
    exact ⟨fun hp hp' => absurd hp hp', fun _ => rfl, .inl⟩
  | started o rest hev hp h' =>
    have hport := (stepKeepsTheInvariant s t hi h).port_send
    rw [step_cfg h] at hport
    have hsend : s.phase ≠ .send := by simp [hp]
    exact ⟨fun hp' => absurd hp' hsend, fun _ => by rw [h', first_txLog], fun hp' => .inr ⟨hp, hport hp'⟩⟩
  | answered a rest hp ha h =>
    obtain ⟨hlog, hanswers⟩ := sendAnswered_txLog s.op.command a { s with txAnswers := rest }
    have hleft : t.phase ≠ .send := by
      obtain hp' | hp' := sendAnswered_phase s.op.command a { s with txAnswers := rest } <;> rw [h, hp'] <;> nofun
    exact ⟨fun _ _ => ⟨a, rest, ha, h ▸ hanswers, h ▸ hlog⟩, fun hstays => absurd ⟨hp, hleft⟩ hstays,
      fun hp' => absurd hp' hleft⟩
  | pulled a rest hf hp hr h =>
    obtain ⟨d, i, l, m, -, -, hout⟩ := pull_outcome hi hf hp hr h
    have hsend : s.phase ≠ .send := by simp [hp]
    have hleft : t.phase ≠ .send := by
      obtain ⟨-, -, -, hphase | hphase⟩ := pull_frame h
      · rw [hphase]
        exact hsend
      · simp [hphase]
    obtain ⟨hlog, -⟩ := hout.ports
    exact ⟨fun hp' => absurd hp' hsend, fun _ => hlog, fun hp' => absurd hp' hleft⟩

/-- A reset leaves the stream, or drops the error owed to the pull it cuts (70_reset_and_hazards.md R232). -/
theorem rxAfterCut_cases (s : State) : rxAfterCut s = s.rxStream ∨
    (s.phase = .recv ∧ ∃ a, s.rxStream = a :: rxAfterCut s ∧ ∀ b, a ≠ .byte b) := by
  by_cases hp : s.phase = .recv
  · rw [rxAfterCut, if_pos hp]
    obtain h | h := withoutOwedError_cases s.rxStream
    · exact .inl h
    · exact .inr ⟨hp, h⟩
  · exact .inl (rxAfterCut_other hp)

@[simp] theorem first_rxStream (o : HostOp) (s : State) : (o.first s).rxStream = s.rxStream := by rw [HostOp.first_frame]

/-- Settles O51: a reset by what it cuts, and each kind of step by what it takes from the stream or adds at its end. -/
theorem streamIsPulledInOrder : Obligations.StreamIsPulledInOrder := by
  intro s t hi h
  obtain ⟨rest, hin, rfl⟩ | kind := reset_or_stepKind h
  · obtain hsame | ⟨hp, a, ha, herr⟩ := rxAfterCut_cases { s with inputs := rest }
    · exact .inl hsame
    · exact .inr (.inr (.inl ⟨hp, a, ha, herr, hin⟩))
  · cases kind with
    | quiet h hrx =>
      obtain hsame | harrives := hrx
      · exact .inl hsame
      · exact .inr (.inr (.inr harrives))
    | marked code rest hev hbad h => exact .inl (by rw [h])
    | started o rest hev hp h => exact .inl (by rw [h, first_rxStream])
    | answered a rest hp ha h =>
      refine .inl ?_
      obtain ⟨-, hs⟩ | ⟨-, -, -, hs⟩ | ⟨-, -, hs⟩ := sendAnswered_cases s.op.command a { s with txAnswers := rest } <;>
        rw [h, hs] <;> simp
    | pulled a rest hf hp hr h =>
      obtain ⟨d, i, l, m, -, -, hout⟩ := pull_outcome hi hf hp hr h
      obtain ⟨-, hrest, hin⟩ := hout.ports
      exact .inr (.inl ⟨hp, a, hrest ▸ hr, hin⟩)

end Sys2Proof.Machine

/-! ## Bytes of the buffer that no step reads

A byte at index `dec_idx` or above decides nothing: outside a pull no step reads the buffer, and a pull reads only below the index
it has come to (20_memory.md R50). -/

namespace Sys2Proof.Machine

/-- The state with another buffer. -/
def withBuf (m : Memory) (s : State) : State := { s with buf := m }

/-- The outcome with another buffer in the next state. -/
def onBuf (m : Memory) (o : Out) : Out := andThen o fun t => .next (withBuf m t)

/-- Next states of the two outcomes, if any, hold the same bytes. -/
def SameAfter (o o' : Out) : Prop := ∀ t t', o = .next t → o' = .next t' → SameHeldBytes t t'

theorem sameAfter_next {t t' : State} (h : SameHeldBytes t t') : SameAfter (.next t) (.next t') := by
  rintro _ _ ⟨⟩ ⟨⟩
  exact h

/-- An outcome and the same with a buffer that agrees on the bytes held. -/
theorem sameAfter_onBuf {m : Memory} {o : Out} (h : ∀ t, o = .next t → ∀ a, a < t.decIdx → m.read a = t.buf.read a) :
    SameAfter o (onBuf m o) := by
  rintro t t' rfl ht'
  cases ht'
  exact ⟨rfl, h t rfl⟩

/-! ### Steps that are no pull -/

theorem modeUpdate_withBuf (m : Memory) (c : Command) (s : State) :
    modeUpdate c (withBuf m s) = withBuf m (modeUpdate c s) := by cases c <;> rfl

theorem sendAnswered_withBuf (m : Memory) (c : Command) (a : TxAnswer) (s : State) :
    sendAnswered c a (withBuf m s) = withBuf m (sendAnswered c a s) := by
  cases a with
  | sendFailed => rfl
  | ok =>
    by_cases h : s.expect = .ack ∧ s.cfg.ackExpected.get c = false
    · obtain ⟨he, hx⟩ := h
      rw [sendAnswered_ok_unacknowledged he hx, sendAnswered_ok_unacknowledged (s := withBuf m s) he hx]
      cases c <;> rfl
    · rw [sendAnswered_ok_awaited h, sendAnswered_ok_awaited (s := withBuf m s) h]
      rfl

theorem cmdStep_withBuf {s : State} (hf : s.fault = false) (m : Memory) (c : Command) :
    cmdStep c (withBuf m s) = onBuf m (cmdStep c s) := by
  obtain ⟨a, rest, hp, hport, ha, hs⟩ | ⟨hnot, hs⟩ := cmdStep_cases (c := c) hf <;> rw [hs]
  · rw [cmdStep_answered (s := withBuf m s) hf hp hport ha]
    exact congrArg _ (sendAnswered_withBuf m c a { s with txAnswers := rest })
  · exact cmdStep_unanswered (s := withBuf m s) hf hnot

theorem first_withBuf (m : Memory) (o : HostOp) (s : State) : o.first (withBuf m s) = withBuf m (o.first s) := by
  cases o with
  | read => cases h : s.reportMode <;> simp [HostOp.first, readFirst, withBuf, h] <;> rfl
  | _ => rfl

theorem exec_start_withBuf {s : State} (hf : s.fault = false) (m : Memory) (code : BitVec 3) :
    exec (decodeHostOp code) (withBuf m s) = onBuf m (exec (decodeHostOp code) s) := by
  obtain ⟨o, rfl⟩ | hreserved := code_cases code
  · rw [exec_code, exec_code]
    by_cases hp : s.phase = .idle
    · rw [startOp_idle hf hp, startOp_idle (s := withBuf m s) hf hp]
      exact congrArg _ (first_withBuf m o { s with op := o })
    · rw [startOp_busy hf hp, startOp_busy (s := withBuf m s) hf hp]
      rfl
  · rw [exec_reserved hreserved, exec_reserved hreserved, startReserved_eq hf, startReserved_eq (s := withBuf m s) hf]
    rfl

/-- A step that is no pull and no reset does not look at the buffer. -/
theorem step_withBuf {s : State} (hf : s.fault = false) (hr : NoReset s)
    (hpull : ∀ a rest, nextEvent s ≠ .rxAnswered a rest) (m : Memory) : step (withBuf m s) = onBuf m (step s) := by
  have event : nextEvent (withBuf m s) = nextEvent s := rfl
  unfold step
  rw [event]
  cases hev : nextEvent s with
  | reset rest => exact absurd hev (hr rest)
  | rxAnswered a rest => exact absurd hev (hpull a rest)
  | txAnswered =>
    rw [exec_cmdInstr, exec_cmdInstr]
    exact cmdStep_withBuf hf m s.op.command
  | start code rest => exact exec_start_withBuf (s := { s with inputs := rest }) hf m code
  | _ => rfl

/-- Such a step keeps the buffer and `dec_idx`, or sets the index back for a receive phase. -/
theorem decoder_of_no_pull {s t : State} (hr : NoReset s) (hpull : ∀ a rest, nextEvent s ≠ .rxAnswered a rest)
    (h : step s = .next t) : t.buf = s.buf ∧ t.decIdx ≤ s.decIdx := by
  cases stepKind hr h with
  | quiet h => rw [h]; exact ⟨rfl, Nat.le_refl _⟩
  | marked code rest hev hbad h => rw [h]; exact ⟨rfl, Nat.le_refl _⟩
  | started o rest hev hp h =>
    refine ⟨by rw [h, first_buf], ?_⟩
    obtain ⟨-, -, hs⟩ | ⟨-, hs⟩ | ⟨-, -, hs⟩ := o.first_cases { s with inputs := rest, op := o } <;> rw [h, hs] <;> simp
  | answered a rest hp ha h =>
    obtain ⟨-, hs⟩ | ⟨-, -, -, hs⟩ | ⟨-, -, hs⟩ := sendAnswered_cases s.op.command a { s with txAnswers := rest } <;>
      rw [h, hs] <;> simp
  | pulled a rest hf hp hr h => exact absurd (nextEvent_recv hf hp hr) (hpull a rest)

/-! ### Pulls -/

theorem shapeOf_eq_meas {len : Half} (h : shapeOf len = .meas) : len = measLen := by
  by_contra hne
  simp [shapeOf, hne] at h

theorem shapeOf_eq_ack {len : Half} (h : shapeOf len = .ack) : len ≠ measLen := by
  rintro rfl
  simp [shapeOf] at h

/-- FrameDone reads the fields of a measurement and the payload of an acknowledgement. -/
theorem frameDone_withBuf {s : State} {m : Memory} {kind : Shape} (hmeas : kind = .meas → measFields m = measFields s.buf)
    (hack : kind = .ack → ackPayload s.cfg m = ackPayload s.cfg s.buf) :
    frameDone kind (withBuf m s) = withBuf m (frameDone kind s) := by
  obtain ⟨he, rfl, h⟩ | ⟨he, rfl, hp, h⟩ | ⟨hne, h⟩ := frameDone_cases kind s <;> rw [h]
  · have h' := frameDone_meas (s := withBuf m s) he
    rw [h', show measFields (withBuf m s).buf = measFields s.buf from hmeas rfl]
    rfl
  · rw [frameDone_ack (s := withBuf m s) he ((hack rfl).trans hp)]
    exact congrArg (complete none) (modeUpdate_withBuf m s.expCmd s)
  · refine frameDone_unexpected (s := withBuf m s) ?_
    by_cases hk : kind = s.expect
    · obtain ⟨he, hp⟩ := hne.resolve_left (not_not.2 hk)
      exact .inr ⟨he, fun h => hp ((hack (hk.trans he)).symm.trans h)⟩
    · exact .inl hk

/-- A complete frame is validated by its own bytes. -/
theorem validate_withBuf {s : State} {m : Memory} (hl : s.decLen = measLen ∨ s.decLen = s.cfg.ackLen)
    (hsame : ∀ a, a < frameLen s → m.read a = s.buf.read a) : validate (withBuf m s) = onBuf m (validate s) := by
  have hframe : frameLen s = 4 + s.decLen.toNat := rfl
  have hbytes : ∀ a n, a + n ≤ frameLen s → m.readBytes a n = s.buf.readBytes a n := fun a n h =>
    readBytes_congr fun i hi => hsame _ (by omega)
  have hchecked : m.readBytes 0 (frameLen s - 2) = s.buf.readBytes 0 (frameLen s - 2) := hbytes _ _ (by omega)
  have hchk : m.read16 (frameLen s - 2) = s.buf.read16 (frameLen s - 2) := by
    rw [Memory.read16, Memory.read16, hsame _ (by omega), hsame _ (by omega)]
  have hdone : frameDone (shapeOf s.decLen) (withBuf m s) = withBuf m (frameDone (shapeOf s.decLen) s) := by
    refine frameDone_withBuf (fun hk => ?_) fun hk => hbytes 4 _ ?_
    · rw [measFields_eq_fieldsOf, measFields_eq_fieldsOf, hbytes 4 26 (by rw [hframe, shapeOf_eq_meas hk]; decide)]
    · rw [hframe, hl.resolve_left (shapeOf_eq_ack hk)]
      omega
  have hval : validate (withBuf m s) = if bufSize < frameLen s then .fault .noSuchBufferByte
      else if sum16 (m.readBytes 0 (frameLen s - 2)) ≠ m.read16 (frameLen s - 2) then
        .next (raise .checksumError (withBuf m s))
      else .next (frameDone (shapeOf s.decLen) (withBuf m s)) := rfl
  rw [hval, hchecked, hchk, hdone, validate]
  split_ifs <;> rfl

/-- Validate leaves the held bytes alone. -/
theorem validate_held {s t : State} (h : validate s = .next t) : t.buf = s.buf ∧ t.decIdx = s.decIdx := by
  obtain ⟨e, rfl⟩ | ⟨-, f, rfl⟩ | ⟨-, rfl⟩ := validate_eq_next h <;> simp

/-- Buffers that agree below an index agree up to it once the same byte is written there. -/
theorem read_write_congr {m m' : Memory} {i : Nat} (hm : m.wf = true) (hm' : m'.wf = true)
    (h : ∀ a, a < i → m'.read a = m.read a) (b : Byte) :
    ∀ a, a < i + 1 → (m'.write i b).read a = (m.write i b).read a := by
  intro a ha
  rw [read_write hm', read_write hm]
  split
  · rfl
  · exact h a (by omega)

section
variable {s : State} {b : Byte} {rest : List RxAnswer} {m : Memory} (hi : Inv s) (hf : s.fault = false)
  (hp : s.phase = .recv) (hr : s.rxStream = .byte b :: rest) (hm : m.wf = true)
  (hsame : ∀ a, a < s.decIdx → m.read a = s.buf.read a)
include hi hf hp hr hm hsame

/-- The hunt reads nothing, and writes both bytes of the header. -/
theorem sameAfter_hunt (hd : s.decState = .hunt0 ∨ s.decState = .hunt1) :
    SameAfter (step s) (step (withBuf m s)) := by
  by_cases hend : s.decState = .hunt1 ∧ b = hdr1
  · obtain ⟨hd1, rfl⟩ := hend
    have hs := step_byte hf hp hr (decByte_hunt1_hdr1 (s := { s with rxStream := rest }) hd1) nofun
    have hs' := step_byte (s := withBuf m s) hf hp hr
      (decByte_hunt1_hdr1 (s := { withBuf m s with rxStream := rest }) hd1) nofun
    obtain ⟨h0, h1, -⟩ := read_takeHeader_buf hi.buf_wf
    obtain ⟨h0', h1', -⟩ := read_takeHeader_buf (s := withBuf m s) hm
    rw [hs, hs']
    refine sameAfter_next ⟨rfl, fun a (ha : a < 2) => ?_⟩
    obtain rfl | rfl : a = 0 ∨ a = 1 := by omega
    · exact h0'.trans h0.symm
    · exact h1'.trans h1.symm
  · have hs := step_hunt ⟨hf, hi.buf_wf, hp, hd, hr⟩ fun hd1 hb => hend ⟨hd1, hb⟩
    have hs' := step_hunt (s := withBuf m s) ⟨hf, hm, hp, hd, hr⟩ fun hd1 hb => hend ⟨hd1, hb⟩
    rw [hs, hs']
    exact sameAfter_next ⟨rfl, hsame⟩

/-- LenCheck reads the two length bytes, below the index it has come to. -/
theorem sameAfter_len (hd : s.decState = .len) : SameAfter (step s) (step (withBuf m s)) := by
  obtain ⟨hidx, -⟩ := (decoderOk_len hd).1 (hi.decoder hp)
  have hwritten := read_write_congr hi.buf_wf hm hsame b
  obtain hidx | hidx := hidx <;> rw [hidx] at hwritten
  · rw [step_len_first hf hp hr hd hidx, step_len_first (s := withBuf m s) hf hp hr hd hidx]
    exact sameAfter_next ⟨rfl, hwritten⟩
  · have hread : (withBuf m s).buf.read 2 = s.buf.read 2 := hsame 2 (by omega)
    by_cases hl : be16 (s.buf.read 2) b = measLen ∨ be16 (s.buf.read 2) b = s.cfg.ackLen
    · have hs' := step_len_legal (s := withBuf m s) hi.cfg_wf hf hm hp hr hd hidx (by rw [hread]; exact hl)
      rw [step_len_legal hi.cfg_wf hf hi.buf_wf hp hr hd hidx hl, hs', hread]
      exact sameAfter_next ⟨rfl, hwritten⟩
    · have hs' := step_len_illegal (s := withBuf m s) hf hm hp hr hd hidx (by rw [hread]; exact not_or.1 hl)
      rw [step_len_illegal hf hi.buf_wf hp hr hd hidx (not_or.1 hl), hs', hread]
      exact sameAfter_next ⟨rfl, hwritten⟩

/-- The body reads nothing until its last byte, whose frame is all below the index it has come to. -/
theorem sameAfter_body (hd : s.decState = .body) : SameAfter (step s) (step (withBuf m s)) := by
  obtain ⟨hl, -, hlt, -⟩ := (decoderOk_body hd).1 (hi.decoder hp)
  have hfit := frameLen_le_bufSize hi.cfg_wf hl
  have hin : s.decIdx < bufSize := by omega
  have hwritten := read_write_congr hi.buf_wf hm hsame b
  by_cases hlast : s.decIdx + 1 = frameLen s
  · rw [step_body_last hi.cfg_wf hf hp hr hd hin hlast, step_body_last (s := withBuf m s) hi.cfg_wf hf hp hr hd hin hlast]
    have hval := validate_withBuf (s := { s with rxStream := rest, buf := s.buf.write s.decIdx b, decIdx := s.decIdx + 1 })
      (m := m.write s.decIdx b) hl fun a ha => hwritten a (hlast ▸ ha)
    refine hval ▸ sameAfter_onBuf fun t ht => ?_
    obtain ⟨hbuf, hidx⟩ := validate_held ht
    rw [hbuf, hidx]
    exact hwritten
  · rw [step_body hf hp hr hd hin hlast, step_body (s := withBuf m s) hf hp hr hd hin hlast]
    exact sameAfter_next ⟨rfl, hwritten⟩

end

/-- A pull reads only below the index it has come to. -/
theorem sameAfter_pull {s : State} {a : RxAnswer} {rest : List RxAnswer} {m : Memory} (hi : Inv s) (hf : s.fault = false)
    (hp : s.phase = .recv) (hr : s.rxStream = a :: rest) (hm : m.wf = true)
    (hsame : ∀ a, a < s.decIdx → m.read a = s.buf.read a) : SameAfter (step s) (step (withBuf m s)) := by
  have error : ∀ e, (∀ u, recvAnswer a u = .next (raise e u)) → SameAfter (step s) (step (withBuf m s)) := fun e h => by
    rw [step_recv_raise hf hp hr (h _), step_recv_raise (s := withBuf m s) hf hp hr (h _)]
    exact sameAfter_next ⟨rfl, hsame⟩
  cases a with
  | byte b =>
    cases hd : s.decState with
    | hunt0 => exact sameAfter_hunt hi hf hp hr hm hsame (.inl hd)
    | hunt1 => exact sameAfter_hunt hi hf hp hr hm hsame (.inr hd)
    | len => exact sameAfter_len hi hf hp hr hm hsame hd
    | body => exact sameAfter_body hi hf hp hr hm hsame hd
  | noResponse => exact error .noResponse fun _ => rfl
  | readFailed => exact error .readFailed fun _ => rfl

/-- A step with a next state that is no reset was not faulted. -/
theorem fault_of_step {s t : State} (hr : NoReset s) (h : step s = .next t) : s.fault = false := by
  by_contra hf
  rw [step_faulted (by simpa using hf) hr] at h
  cases h

/-- Settles O53: a reset clears the buffer, a pull reads below its index, and every other step does not look at the buffer. -/
theorem staleBufferBytesAreNeverRead : Obligations.StaleBufferBytesAreNeverRead := by
  intro s s' t t' hi hi' ⟨hs', hsame⟩ h h'
  have hbuf : s' = withBuf s'.buf s := hs'
  suffices SameAfter (step s) (step (withBuf s'.buf s)) from this t t' h (hbuf ▸ h')
  by_cases hr : NoReset s
  · have hf := fault_of_step hr h
    by_cases hpull : ∀ a rest, nextEvent s ≠ .rxAnswered a rest
    · rw [step_withBuf hf hr hpull]
      refine sameAfter_onBuf fun u hu a ha => ?_
      obtain ⟨hbuf, hidx⟩ := decoder_of_no_pull hr hpull hu
      rw [hbuf]
      exact hsame a (by omega)
    · obtain ⟨a, rest, hev⟩ : ∃ a rest, nextEvent s = .rxAnswered a rest := by simpa using hpull
      obtain ⟨-, hp, hrx⟩ := event_rxAnswered hev
      exact sameAfter_pull hi hf hp hrx hi'.buf_wf hsame
  · obtain ⟨rest, hev⟩ : ∃ rest, nextEvent s = .reset rest := by simpa [NoReset] using hr
    rw [step_of_reset hev, step_of_reset (s := withBuf s'.buf s) hev]
    exact sameAfter_next ⟨rfl, fun _ _ => rfl⟩

end Sys2Proof.Machine

/-! ## Registers that no step reads

A register that is not live in its phase decides nothing: a step from the state with such registers set to fixed values has the
same outcome in the live ones (10_state.md R21, R26 to R28, R36). -/

namespace Sys2Proof.Machine

/-- The outcome with the registers that are not live set to fixed values. -/
def liveOutcome (o : Out) : Out := andThen o fun t => .next (liveOnly t)

@[simp] theorem liveOutcome_next (t : State) : liveOutcome (.next t) = .next (liveOnly t) := rfl

theorem liveOutcome_congr {t t' : State} (h : liveOnly t = liveOnly t') :
    liveOutcome (.next t) = liveOutcome (.next t') := congrArg Host.Outcome.next h

theorem liveOnly_idle {s : State} (hp : s.phase = .idle) : liveOnly s = { s with
    op := .read, expect := .meas, expCmd := .requestRead, decState := .hunt0, decIdx := 0, decLen := 0 } := by
  simp [liveOnly, hp]

/-- The command awaited, where an acknowledgement is. -/
def liveCmd (s : State) : Command := if s.expect = .meas then .requestRead else s.expCmd

theorem liveOnly_send {s : State} (hp : s.phase = .send) :
    liveOnly s = { s with expCmd := liveCmd s, decState := .hunt0, decIdx := 0, decLen := 0 } := by
  simp [liveOnly, hp, liveCmd]

/-- `dec_len`, where BODY has it. -/
def liveLen (s : State) : Half := if s.decState = .body then s.decLen else 0

/-- The state with other values in the registers that need not be live in RECV. -/
def withStale (c : Command) (l : Half) (s : State) : State := { s with expCmd := c, decLen := l }

theorem liveOnly_recv {s : State} (hp : s.phase = .recv) : liveOnly s = withStale (liveCmd s) (liveLen s) s := by
  simp [liveOnly, hp, liveCmd, liveLen, withStale]

/-- The registers are live in RECV only where an acknowledgement is awaited, and in BODY. -/
theorem liveOnly_withStale {s : State} {c : Command} {l : Half} (hp : s.phase = .recv) (hc : s.expect = .ack → c = s.expCmd)
    (hl : s.decState = .body → l = s.decLen) : liveOnly (withStale c l s) = liveOnly s := by
  have hcmd : liveCmd (withStale c l s) = liveCmd s := by
    cases he : s.expect with
    | meas => simp [liveCmd, withStale, he]
    | ack => simp [liveCmd, withStale, he, hc he]
  have hlen : liveLen (withStale c l s) = liveLen s := by
    by_cases hd : s.decState = .body
    · simp [liveLen, withStale, hd, hl hd]
    · simp [liveLen, withStale, hd]
  rw [liveOnly_recv hp, liveOnly_recv (s := withStale c l s) hp, hcmd, hlen]
  rfl

/-- Setting the registers twice is setting them once. -/
theorem liveOnly_liveOnly (s : State) : liveOnly (liveOnly s) = liveOnly s := by
  cases hp : s.phase with
  | idle => rw [liveOnly_idle hp]; simp [liveOnly, hp]
  | send => rw [liveOnly_send hp]; cases he : s.expect <;> simp [liveOnly, hp, liveCmd, he]
  | recv =>
    rw [liveOnly_recv hp, liveOnly_withStale hp (fun he => by simp [liveCmd, he]) fun hd => by simp [liveLen, hd]]
    exact liveOnly_recv hp

/-! ### Steps that are no pull -/

/-- The answer to a send reads `expCmd` of an awaited acknowledgement alone. -/
theorem sendAnswered_liveOnly {s : State} (hp : s.phase = .send) (c : Command) (a : TxAnswer) :
    liveOnly (sendAnswered c a (liveOnly s)) = liveOnly (sendAnswered c a s) := by
  have hexpect : (liveOnly s).expect = s.expect := by rw [liveOnly_send hp]
  cases a with
  | sendFailed => rfl
  | ok =>
    by_cases h : s.expect = .ack ∧ s.cfg.ackExpected.get c = false
    · obtain ⟨he, hx⟩ := h
      rw [sendAnswered_ok_unacknowledged he hx, sendAnswered_ok_unacknowledged (s := liveOnly s) (hexpect.trans he) hx]
      cases c <;> rfl
    · rw [sendAnswered_ok_awaited h, sendAnswered_ok_awaited (s := liveOnly s) (by rw [hexpect]; exact h), liveOnly_send hp]
      cases he : s.expect <;> simp [liveOnly, recvStart, liveCmd, he]

theorem cmdStep_liveOnly {s : State} (hf : s.fault = false) (hp : s.phase = .send) (c : Command) :
    liveOutcome (cmdStep c (liveOnly s)) = liveOutcome (cmdStep c s) := by
  obtain ⟨a, rest, -, hport, ha, hs⟩ | ⟨hnot, hs⟩ := cmdStep_cases (c := c) hf <;> rw [hs]
  · rw [cmdStep_answered (s := liveOnly s) hf hp hport ha]
    exact liveOutcome_congr (sendAnswered_liveOnly (s := { s with txAnswers := rest }) hp c a)
  · rw [cmdStep_unanswered (s := liveOnly s) hf hnot]
    exact liveOutcome_congr (liveOnly_liveOnly s)

/-- An accepted start writes what its operation reads. -/
theorem first_liveOnly {s : State} (hp : s.phase = .idle) (o : HostOp) :
    liveOnly (o.first { liveOnly s with op := o }) = liveOnly (o.first { s with op := o }) := by
  rw [liveOnly_idle hp]
  cases o with
  | read => cases hm : s.reportMode <;> simp [HostOp.first, readFirst] <;> rfl
  | _ => rfl

theorem exec_start_liveOnly {s : State} (hf : s.fault = false) (code : BitVec 3) :
    liveOutcome (exec (decodeHostOp code) (liveOnly s)) = liveOutcome (exec (decodeHostOp code) s) := by
  obtain ⟨o, rfl⟩ | hreserved := code_cases code
  · rw [exec_code, exec_code]
    by_cases hp : s.phase = .idle
    · rw [startOp_idle hf hp, startOp_idle (s := liveOnly s) hf hp]
      exact liveOutcome_congr (first_liveOnly hp o)
    · rw [startOp_busy hf hp, startOp_busy (s := liveOnly s) hf hp]
      exact liveOutcome_congr (liveOnly_liveOnly { s with fault := true })
  · rw [exec_reserved hreserved, exec_reserved hreserved, startReserved_eq hf, startReserved_eq (s := liveOnly s) hf]
    exact liveOutcome_congr (liveOnly_liveOnly { s with fault := true })

/-! ### Pulls -/

/-- After an error none of them is live. -/
theorem liveOnly_raise_withStale (e : ErrorKind) (c : Command) (l : Half) (s : State) :
    liveOnly (raise e (withStale c l s)) = liveOnly (raise e s) := rfl

/-- FrameDone reads `expCmd` of an awaited acknowledgement alone. -/
theorem validate_withStale {s : State} {c : Command} (hc : s.expect = .ack → c = s.expCmd) :
    liveOutcome (validate (withStale c s.decLen s)) = liveOutcome (validate s) := by
  cases he : s.expect with
  | ack => rw [hc he]; rfl
  | meas =>
    have hdone : ∀ kind, liveOnly (frameDone kind (withStale c s.decLen s)) = liveOnly (frameDone kind s) := by
      intro kind
      cases kind with
      | meas => rw [frameDone_meas he, frameDone_meas (s := withStale c s.decLen s) he]; rfl
      | ack =>
        have hne : Shape.ack ≠ s.expect := by simp [he]
        rw [frameDone_unexpected (.inl hne), frameDone_unexpected (s := withStale c s.decLen s) (.inl hne)]
        rfl
    have hval : validate (withStale c s.decLen s) = if bufSize < frameLen s then .fault .noSuchBufferByte
        else if sum16 (s.buf.readBytes 0 (frameLen s - 2)) ≠ s.buf.read16 (frameLen s - 2) then
          .next (raise .checksumError (withStale c s.decLen s))
        else .next (frameDone (shapeOf s.decLen) (withStale c s.decLen s)) := rfl
    rw [hval, validate]
    split_ifs
    · rfl
    · exact liveOutcome_congr (liveOnly_raise_withStale ..)
    · exact liveOutcome_congr (hdone _)

section
variable {s : State} {b : Byte} {rest : List RxAnswer} {c : Command} {l : Half} (hi : Inv s) (hf : s.fault = false)
  (hp : s.phase = .recv) (hr : s.rxStream = .byte b :: rest) (hc : s.expect = .ack → c = s.expCmd)
include hi hf hp hr hc

/-- The hunt reads neither. -/
theorem live_hunt (hd : s.decState = .hunt0 ∨ s.decState = .hunt1) :
    liveOutcome (step (withStale c l s)) = liveOutcome (step s) := by
  by_cases hend : s.decState = .hunt1 ∧ b = hdr1
  · obtain ⟨hd1, rfl⟩ := hend
    rw [step_byte hf hp hr (decByte_hunt1_hdr1 (s := { s with rxStream := rest }) hd1) nofun,
      step_byte (s := withStale c l s) hf hp hr
        (decByte_hunt1_hdr1 (s := { withStale c l s with rxStream := rest }) hd1) nofun]
    exact liveOutcome_congr (liveOnly_withStale (s := takeHeader { s with rxStream := rest }) hp hc nofun)
  · have hbody : huntAfter b ≠ .body := by
      unfold huntAfter
      split <;> nofun
    rw [step_hunt ⟨hf, hi.buf_wf, hp, hd, hr⟩ fun hd1 hb => hend ⟨hd1, hb⟩,
      step_hunt (s := withStale c l s) ⟨hf, hi.buf_wf, hp, hd, hr⟩ fun hd1 hb => hend ⟨hd1, hb⟩]
    exact liveOutcome_congr (liveOnly_withStale (s := { s with rxStream := rest, decState := huntAfter b }) hp hc
      fun h => absurd h hbody)

/-- The second length byte writes `dec_len`, and the first reads neither. -/
theorem live_len (hd : s.decState = .len) : liveOutcome (step (withStale c l s)) = liveOutcome (step s) := by
  obtain ⟨hidx | hidx, -⟩ := (decoderOk_len hd).1 (hi.decoder hp)
  · rw [step_len_first hf hp hr hd hidx, step_len_first (s := withStale c l s) hf hp hr hd hidx]
    exact liveOutcome_congr (liveOnly_withStale (s := { s with rxStream := rest, buf := s.buf.write 2 b, decIdx := 3 }) hp hc
      fun h => by cases hd ▸ h)
  · by_cases hl : be16 (s.buf.read 2) b = measLen ∨ be16 (s.buf.read 2) b = s.cfg.ackLen
    · rw [step_len_legal hi.cfg_wf hf hi.buf_wf hp hr hd hidx hl,
        step_len_legal (s := withStale c l s) hi.cfg_wf hf hi.buf_wf hp hr hd hidx hl]
      exact liveOutcome_congr (liveOnly_withStale (s := withDecoder .body 4 (be16 (s.buf.read 2) b) (s.buf.write 3 b)
        { s with rxStream := rest }) hp hc fun _ => rfl)
    · rw [step_len_illegal hf hi.buf_wf hp hr hd hidx (not_or.1 hl),
        step_len_illegal (s := withStale c l s) hf hi.buf_wf hp hr hd hidx (not_or.1 hl)]
      rfl

/-- In BODY `dec_len` is live, and FrameDone reads `expCmd` of an awaited acknowledgement. -/
theorem live_body (hd : s.decState = .body) :
    liveOutcome (step (withStale c s.decLen s)) = liveOutcome (step s) := by
  obtain ⟨hl, -, hlt, -⟩ := (decoderOk_body hd).1 (hi.decoder hp)
  have hin : s.decIdx < bufSize := lt_of_lt_of_le hlt (frameLen_le_bufSize hi.cfg_wf hl)
  by_cases hlast : s.decIdx + 1 = frameLen s
  · rw [step_body_last hi.cfg_wf hf hp hr hd hin hlast,
      step_body_last (s := withStale c s.decLen s) hi.cfg_wf hf hp hr hd hin hlast]
    exact validate_withStale (s := { s with rxStream := rest, buf := s.buf.write s.decIdx b, decIdx := s.decIdx + 1 }) hc
  · rw [step_body hf hp hr hd hin hlast, step_body (s := withStale c s.decLen s) hf hp hr hd hin hlast]
    exact liveOutcome_congr (liveOnly_withStale
      (s := { s with rxStream := rest, buf := s.buf.write s.decIdx b, decIdx := s.decIdx + 1 }) hp hc fun _ => rfl)

end

/-- A pull reads the live registers alone. -/
theorem live_pull {s : State} {a : RxAnswer} {rest : List RxAnswer} (hi : Inv s) (hf : s.fault = false)
    (hp : s.phase = .recv) (hr : s.rxStream = a :: rest) : liveOutcome (step (liveOnly s)) = liveOutcome (step s) := by
  have hc : s.expect = .ack → liveCmd s = s.expCmd := fun he => by simp [liveCmd, he]
  rw [liveOnly_recv hp]
  have error : ∀ e, (∀ u, recvAnswer a u = .next (raise e u)) →
      liveOutcome (step (withStale (liveCmd s) (liveLen s) s)) = liveOutcome (step s) := fun e h => by
    rw [step_recv_raise hf hp hr (h _), step_recv_raise (s := withStale (liveCmd s) (liveLen s) s) hf hp hr (h _)]
    exact liveOutcome_congr (liveOnly_raise_withStale e _ _ { s with rxStream := rest })
  cases a with
  | byte b =>
    cases hd : s.decState with
    | hunt0 => exact live_hunt hi hf hp hr hc (.inl hd)
    | hunt1 => exact live_hunt hi hf hp hr hc (.inr hd)
    | len => exact live_len hi hf hp hr hc hd
    | body =>
      rw [liveLen, if_pos hd]
      exact live_body hi hf hp hr hc hd
  | noResponse => exact error .noResponse fun _ => rfl
  | readFailed => exact error .readFailed fun _ => rfl

/-- A step of a state of the invariant reads the live registers alone. -/
theorem live_step {s : State} (hi : Inv s) : liveOutcome (step (liveOnly s)) = liveOutcome (step s) := by
  have event : nextEvent (liveOnly s) = nextEvent s := rfl
  cases hev : nextEvent s with
  | rxAnswered a rest =>
    obtain ⟨hf, hp, hr⟩ := event_rxAnswered hev
    exact live_pull hi hf hp hr
  | txAnswered =>
    obtain ⟨hf, hp, -⟩ := event_txAnswered hev
    have hop : (liveOnly s).op = s.op := by rw [liveOnly_send hp]
    rw [step, step, event, hev]
    dsimp only
    rw [exec_cmdInstr, exec_cmdInstr, hop]
    exact cmdStep_liveOnly hf hp s.op.command
  | start code rest =>
    obtain ⟨hf, -⟩ := event_start hev
    rw [step, step, event, hev]
    exact exec_start_liveOnly (s := { s with inputs := rest }) hf code
  | reset rest => rw [step_of_reset hev, step_of_reset (s := liveOnly s) hev]; rfl
  | stopped => rw [step, step, event, hev]
  | txDraw a rest =>
    rw [step_txDraw hev, step_txDraw (s := liveOnly s) hev]
    exact liveOutcome_congr (liveOnly_liveOnly { s with inputs := rest, txAnswers := s.txAnswers ++ [a] })
  | rxDraw a rest =>
    rw [step_rxDraw hev, step_rxDraw (s := liveOnly s) hev]
    exact liveOutcome_congr (liveOnly_liveOnly { s with inputs := rest, rxStream := s.rxStream ++ [a] })
  | dropped rest =>
    rw [step_dropped hev, step_dropped (s := liveOnly s) hev]
    exact liveOutcome_congr (liveOnly_liveOnly { s with inputs := rest })
  | waiting =>
    rw [step, step, event, hev]
    exact liveOutcome_congr (liveOnly_liveOnly s)

/-- Settles O54: both steps have the live outcome of the step from the state the two have in common. -/
theorem deadRegistersAreNeverRead : Obligations.DeadRegistersAreNeverRead := by
  intro s s' t t' hi hi' hlive h h'
  have hsame : liveOutcome (.next t) = liveOutcome (.next t') :=
    calc liveOutcome (.next t)
      _ = liveOutcome (step s) := by rw [h]
      _ = liveOutcome (step (liveOnly s)) := (live_step hi).symm
      _ = liveOutcome (step (liveOnly s')) := by rw [hlive]
      _ = liveOutcome (step s') := live_step hi'
      _ = liveOutcome (.next t') := by rw [h']
  simpa using hsame

end Sys2Proof.Machine
